-- ==== Sys2Proof/Word.lean ====
section
/-! DEFINITION. The widths of what the part handles as bits: bytes of frames, 16-bit valve
values and masks, 32-bit journal sequences. Volumes, counts, indices and addresses are plain
numbers; their ranges are checked by WellFormed (commands) and kept by the operations. -/

namespace Sys2Proof

/-- One byte of a frame. -/
abbrev Byte := BitVec 8

/-- A valve cluster's value, mask or match (R80, R81, R153). -/
abbrev Word16 := BitVec 16

/-- A journal sequence number, which wraps modulo 2^32 (R163). -/
abbrev Seq := BitVec 32

/-- The bytes of an Ethernet frame, in the order they are sent. -/
abbrev Frame := List Byte

end Sys2Proof
end

