-- ==== Sys2Proof/Config.lean ====
section
/-! DEFINITION. The constants the manual fixes. The model has no free value: the spec states
every value it gives an effect to (INVENTORY.md, "What the manual leaves open"). -/

namespace Sys2Proof.Config

/-- SHARE_MAX: the most entries of a share list (R6). -/
def shareMax : Nat := 12
/-- CONTENT_CEILING in centilitres (R7, R34); also the most that one transfer carries (R93). -/
def contentCeiling : Nat := 1000000000
/-- The top capacity of a STORE (R2). -/
def capacityMax : Nat := 500000000
/-- Entries of the Collection Table (R45). -/
def collTableSize : Nat := 2048
/-- Entries of the Blend Table (R45). -/
def blendTableSize : Nat := 1024
/-- The last serial of every serial counter (R50, R100). -/
def serialMax : Nat := 268435455
/-- Places of the journal ring (R163). -/
def journalSize : Nat := 4096
/-- JOURNAL_RESERVE: free records the engine needs to take an entry (R166). -/
def journalReserve : Nat := 80
/-- Ordinary entries the Event Queue holds at most (R155). -/
def ordinaryMax : Nat := 63
/-- Frames of a forwarding buffer (R145). -/
def forwardMax : Nat := 12
/-- Slots of an injected-frame queue (R147, R174). -/
def injectedMax : Nat := 8
/-- Forwarded frames sent while an injected frame waits, before it is sent (R148). -/
def deferralMax : Nat := 4
/-- Batch records of a Recent Batch ring (R99). -/
def ringMax : Nat := 8
/-- Farm ids of the Farm Suspect List (R119). -/
def farmListMax : Nat := 16
/-- The top of every 32-bit counter that stays at its top value. -/
def count32Max : Nat := 4294967295
/-- The top of a segment's volume and of a slot's drawn total: 2^48 - 1 (R61, R86). -/
def volume48Max : Nat := 281474976710655
/-- The sequence counter's exhausted value (R97, R106). -/
def seqExhausted : Nat := 100000
/-- The management EtherType (R172). -/
def managementType : Nat := 0x9C5A
/-- The one version of management frames (R172). -/
def version : Nat := 1
/-- The station address with strap value 0: 02-4B-57-00-00-00 (R172). -/
def stationBase : Nat := 0x024B57000000
/-- Record bytes of one fetch reply (R168). -/
def fetchBytes : Nat := 1400
/-- The batch code of eighteen 9s (R106). -/
def indefiniteCode : Nat := 999999999999999999
/-- Shortest and longest good frame, FCS included (R145). -/
def frameMin : Nat := 64
def frameMax : Nat := 1518

end Sys2Proof.Config
end

