-- ==== Sys2Proof/Syntax.lean ====
section
/-! DEFINITION. The commands of the part: one constructor of `Instr` for each row of
spec/opcode_table.json, with the operands the rules give it. Numbers stand as the wire carries
them, so that a value a rule refuses can be said; WellFormed bounds them by their fields. -/

namespace Sys2Proof

/-- The two ports (00_scope, R145). Port A faces the backbone, port B the process cell. -/
inductive Port
  | a | b
  deriving DecidableEq, Repr

/-- A Plant Clock reading: day, second of day, hundredth (R178). -/
structure TimeStamp where
  day : Nat
  sec : Nat
  hund : Nat
  deriving DecidableEq, Repr

/-- A key as a command carries it: four bits of kind and a 28-bit serial (section 12.1). -/
structure RawKey where
  kind : Nat
  serial : Nat
  deriving DecidableEq, Repr

/-- The header of a command frame with what R173 checks of its form: the receiving port, the
source address, the version, the tag, the argument length field, and how many payload bytes
stand behind the header. The command code is the constructor's. -/
structure CmdHdr where
  port : Port
  source : Nat
  version : Nat
  tag : Nat
  argLen : Nat
  avail : Nat
  deriving DecidableEq, Repr

/-- The unit of a MANIFEST volume field (R151). -/
inductive VolUnit
  | cl | dl | litre
  deriving DecidableEq, Repr

/-- The twelve item classes, in the order of R151. -/
inductive ItemClass
  | meter | valve | manifest | compSelect | compDone | compReject
  | cipStart | cipEnd | batchOpen | batchClose | carton | dispatch
  deriving DecidableEq, Repr

/-- Where one field of an item stands in the payload (R150). -/
structure FieldSpec where
  off : Nat
  width : Nat
  deriving DecidableEq, Repr

/-- An entry of the Match Table (R150). The fields stand in the order of R151. -/
structure MatchEntry where
  valid : Bool
  base : Nat
  limit : Nat
  kind : Nat
  cls : ItemClass
  objBase : Nat
  count : Nat
  stride : Nat
  fields : List FieldSpec
  volUnit : VolUnit
  deriving DecidableEq, Repr

/-- The Telegram Filter's settings (R149). -/
structure TelegramFilter where
  etherType : Nat
  stationOff : Nat
  stationWidth : Nat
  kindOff : Nat
  deriving DecidableEq, Repr

/-- A Valve Override slot (R153). -/
structure Override where
  enable : Bool
  cluster : Nat
  mask : Word16
  forced : Word16
  deriving DecidableEq, Repr

/-- What LOAD_VESSEL carries behind the index: a kind and the fields of that kind (R2, R3). -/
inductive VesselCfg
  | unconfigured
  | store (capacity : Nat)
  | bay (index tolerance : Nat)
  | filler (index number coder port timeout product : Nat)
  | unknown (kind : Nat)
  deriving DecidableEq, Repr

/-- One condition of a route entry (R81). -/
structure RouteCond where
  cluster : Nat
  mask : Word16
  mtch : Word16
  deriving DecidableEq, Repr

/-- The arguments of LOAD_ROUTE (R82); `valid` is the byte as it stands in the frame. -/
structure RouteArgs where
  bank : Nat
  index : Nat
  valid : Nat
  meter : Nat
  src : Nat
  dst : Nat
  count : Nat
  c1 : RouteCond
  c2 : RouteCond
  deriving DecidableEq, Repr

/-- The arguments of LOAD_POLICY: a condition row or a content row (R140). -/
inductive PolicyArgs
  | cond (row report target : Nat)
  | content (cause enable : Nat)
  deriving DecidableEq, Repr

/-- One entry of a VESSEL_WRITE list (R18). -/
structure WriteEntry where
  key : RawKey
  cat : Nat
  vol : Nat
  deriving DecidableEq, Repr

/-- The arguments of VESSEL_WRITE (R18); category 0xFF is NONE, and `uncertain` is the byte as it
stands in the frame. -/
structure WriteArgs where
  vessel : Nat
  cat : Nat
  uncertain : Nat
  entries : List WriteEntry
  deriving DecidableEq, Repr

/-- The commands of the part, one constructor for each row of the opcode table. A management
command carries its frame's header first. The rows named ..._ENTRY carry nothing: their
operands are those of the entry the engine has taken (log 2). -/
inductive Instr
  -- reset and port events
  | powerOnReset
  | resetRelease (strap : BitVec 6)
  | linkUp (p : Port)
  | linkDown (p : Port)
  | frameReceive (p : Port) (fcsGood : Bool) (bytes : Frame)
  | frameTransmit (p : Port)
  -- time
  | idleTimerExpiry (filler : Nat)
  | clockDayRollover
  -- direct commands
  | status (h : CmdHdr)
  | loadMatch (h : CmdHdr) (index : Nat) (e : MatchEntry)
  | loadFilter (h : CmdHdr) (f : TelegramFilter)
  | loadOverride (h : CmdHdr) (slot : Nat) (o : Override)
  | loadVessel (h : CmdHdr) (index : Nat) (cfg : VesselCfg)
  | loadMeter (h : CmdHdr) (index width num den jump : Nat)
  | loadRoute (h : CmdHdr) (r : RouteArgs)
  | loadCategory (h : CmdHdr) (cells : List Nat)
  | loadPolicy (h : CmdHdr) (p : PolicyArgs)
  | loadOutput (h : CmdHdr) (pin source filler polarity : Nat)
  | setManagers (h : CmdHdr) (first second : Nat)
  | setPlant (h : CmdHdr) (plant : Nat)
  | setSerials (h : CmdHdr) (coll blend batch : Nat)
  | setClock (h : CmdHdr) (day sec hund : Nat)
  | readVessel (h : CmdHdr) (index : Nat)
  | readKey (h : CmdHdr) (key : RawKey)
  | readBatch (h : CmdHdr) (filler position : Nat)
  | readBay (h : CmdHdr) (index : Nat)
  | readMeter (h : CmdHdr) (index : Nat)
  | journalFetch (h : CmdHdr) (start : Seq)
  | journalRelease (h : CmdHdr) (newest : Seq)
  | clearEngine (h : CmdHdr)
  -- inner steps
  | applyClearEngine
  | deferredDirectCommands
  -- queued commands
  | switchBank (h : CmdHdr)
  | vesselWrite (h : CmdHdr) (w : WriteArgs)
  | manualTransfer (h : CmdHdr) (src dst vol : Nat)
  | cipStart (h : CmdHdr) (vessel : Nat)
  | cipEnd (h : CmdHdr) (vessel : Nat)
  | batchOpen (h : CmdHdr) (filler product cat : Nat)
  | batchClose (h : CmdHdr) (filler : Nat)
  | suspectKey (h : CmdHdr) (key : RawKey)
  | suspectSample (h : CmdHdr) (sample : Nat)
  | suspectFarm (h : CmdHdr) (farm : Nat)
  | releaseKey (h : CmdHdr) (key : RawKey)
  | releaseSample (h : CmdHdr) (sample : Nat)
  | releaseFarm (h : CmdHdr) (farm : Nat)
  | holdRelease (h : CmdHdr) (arg : Nat)
  -- engine operations
  | meterEntry
  | valveEntry
  | manifestEntry
  | compSelectEntry
  | compDoneEntry
  | compRejectEntry
  | cipStartEntry
  | cipEndEntry
  | batchOpenEntry
  | batchCloseEntry
  | cartonEntry
  | dispatchEntry
  | idleCloseEntry
  | gapEntry
  | switchBankEntry
  | vesselWriteEntry
  | manualTransferEntry
  | suspectKeyEntry
  | suspectSampleEntry
  | suspectFarmEntry
  | releaseKeyEntry
  | releaseSampleEntry
  | releaseFarmEntry
  | holdReleaseEntry
  | plantClockAdvance
  deriving DecidableEq, Repr

end Sys2Proof
end

