-- ==== Sys2Proof/Decode.lean ====
section
/-! DEFINITION. The decoder over the opcode table's bits, and the table of item fields. No row of
spec/opcode_table.json gives bits (every row's "fields" is empty and none has "fixed"), so no word
spells a command. Command FRAMES are read by Machine/Operands.lean (R183), at FRAME_RECEIVE. -/

namespace Sys2Proof

/-- The command that a word spells by the table's bits: none, since the table gives none. -/
def decodeTableWord (_nbits _w : Nat) : Option Instr := none

/-- The widths allowed to each field of a class, in the order of R151; width 0 stands for an
optional field that is not extracted. -/
def ItemClass.widths : ItemClass → List (List Nat)
  | .meter => [[1, 2, 4]]
  | .valve => [[1, 2]]
  | .manifest => [[1, 2, 4], [1, 2, 4], [1, 2, 4], [1, 2, 4], [1], [0, 1, 2, 4], [0, 4]]
  | .compSelect | .compReject => [[1, 2, 4], [1, 2, 4]]
  | .compDone | .cipStart | .cipEnd | .batchClose => []
  | .batchOpen => [[1, 2], [1]]
  | .carton => [[1, 2, 4]]
  | .dispatch => [[9], [1, 2], [1, 2, 4]]

/-- The last object of a class (R150); DISPATCH concerns none. -/
def ItemClass.lastObject : ItemClass → Option Nat
  | .meter => some 47
  | .valve => some 31
  | .manifest | .compSelect | .compDone | .compReject => some 7
  | .cipStart | .cipEnd => some 63
  | .batchOpen | .batchClose | .carton => some 7
  | .dispatch => none

/-- The class a LOAD_MATCH class byte names (R185: position in the list of R151). -/
def ItemClass.ofCode : Nat → Option ItemClass
  | 0 => some .meter
  | 1 => some .valve
  | 2 => some .manifest
  | 3 => some .compSelect
  | 4 => some .compDone
  | 5 => some .compReject
  | 6 => some .cipStart
  | 7 => some .cipEnd
  | 8 => some .batchOpen
  | 9 => some .batchClose
  | 10 => some .carton
  | 11 => some .dispatch
  | _ => none

end Sys2Proof
end

