-- ==== Sys2Proof/Machine/State.lean ====
section
/-! DEFINITION. Everything the part holds, block by block as 00_scope names them, and its state
right after reset. Views that follow from other state (contents, totals, pins, the engine state)
are functions in the other files of Machine/, not fields. -/

namespace Sys2Proof.Machine

open Sys2Proof

/-! ## Names and small values -/

/-- A lineage key (R8): a collection, a blend, or milk of unknown origin. -/
inductive Key
  | unknown
  | coll (serial : Nat)
  | blend (serial : Nat)
  deriving DecidableEq, Repr

/-- A category 0 to 7, or NONE (R9). -/
abbrev Cat := Option (Fin 8)

/-- A share: a key and a volume in centilitres (R6). -/
structure Share where
  key : Key
  vol : Nat
  deriving DecidableEq, Repr

/-- Statuses and results, which share one numbering (section 12.1). -/
inductive Status
  | done | queued | queueFull | badArgument | notPermitted | tableInvalid | activeBank | inUse
  | notResident | range | busy | tableFull | listFull
  deriving DecidableEq, Repr

/-- The two Route Banks (R81). -/
inductive Bank
  | a | b
  deriving DecidableEq, Repr

/-! ## Vessels -/

/-- The kinds of a Vessel Table entry (R1). -/
inductive VesselKind
  | unconfigured | store | bay | filler
  deriving DecidableEq, Repr

/-- The states of a vessel (R5). -/
inductive VesselState
  | unseeded | holding | cleaning
  deriving DecidableEq, Repr

/-- An entry of the Vessel Table (R1, R2, R5 to R13). For a FILLER the state, the list, the
category and the flags are those of its filler record and open batch, and the fields here stand
at their initial values. -/
structure Vessel where
  kind : VesselKind := .unconfigured
  capacity : Nat := 0
  bayIndex : Nat := 0
  tolerance : Nat := 0
  fillerIndex : Nat := 0
  fillerNumber : Nat := 0
  coderAddr : Nat := 0
  coderPort : Port := .a
  idleTimeout : Nat := 0
  autoProduct : Nat := 0
  state : VesselState := .unseeded
  list : List Share := []
  cat : Cat := none
  uncertain : Bool := false
  suspect : Bool := false
  deriving DecidableEq, Repr

/-! ## Collection and blend records -/

/-- The fields of a full collection record, absent in an opaque one (R46, R49). -/
structure CollInfo where
  farm : Nat
  tanker : Nat
  comp : Nat
  manifestVol : Nat
  sample : Option Nat
  collTime : Option TimeStamp
  bay : Nat
  intakeTime : TimeStamp
  deriving DecidableEq, Repr

/-- A collection record (R46); `info` is none in an opaque record (R49). -/
structure CollRec where
  serial : Nat
  cat : Fin 8
  mark : Bool
  refs : Nat
  info : Option CollInfo
  deriving DecidableEq, Repr

/-- The fields of a full blend record, absent in an opaque one (R48, R49). -/
structure BlendInfo where
  created : TimeStamp
  vessel : Nat
  members : List Share
  deriving DecidableEq, Repr

/-- A blend record (R48); `info` is none in an opaque record (R49). -/
structure BlendRec where
  serial : Nat
  cat : Fin 8
  direct : Bool
  derived : Bool
  refs : Nat
  info : Option BlendInfo
  deriving DecidableEq, Repr

/-! ## Compartment rings -/

/-- A compartment share: remaining and manifest volume (R61). -/
structure CompShare where
  key : Key
  remaining : Nat
  manifest : Nat
  deriving DecidableEq, Repr

/-- The tag of a compartment slot (R61). -/
inductive SlotTag
  | empty | loaded | discharging
  deriving DecidableEq, Repr

/-- A compartment slot (R61). M and the remaining total are sums over `shares`. -/
structure Slot where
  tag : SlotTag := .empty
  tanker : Nat := 0
  comp : Nat := 0
  shares : List CompShare := []
  drawn : Nat := 0
  openTime : TimeStamp := ⟨0, 0, 0⟩
  deriving DecidableEq, Repr

/-- A compartment ring: six slots and two pointers (R61, R62). -/
structure Ring where
  slots : Vector Slot 6 := Vector.replicate 6 {}
  fill : Nat := 0
  disch : Nat := 0
  deriving DecidableEq, Repr

/-! ## Meters, valves and routes -/

/-- A meter's current route (R83). -/
structure Route where
  bank : Bank
  entry : Nat
  src : Nat
  dst : Nat
  deriving DecidableEq, Repr

/-- The five flags of a flow segment (R86). -/
structure SegFlags where
  unrouted : Bool := false
  cleaning : Bool := false
  sameVessel : Bool := false
  jump : Bool := false
  capped : Bool := false
  deriving DecidableEq, Repr

/-- An open flow segment (R86). -/
structure Segment where
  start : TimeStamp := ⟨0, 0, 0⟩
  vol : Nat := 0
  flags : SegFlags := {}
  deriving DecidableEq, Repr

/-- A meter record (R22) with its route (R83) and open segment (R86). `width` is 16 or 32. -/
structure Meter where
  configured : Bool := false
  width : Nat := 32
  num : Nat := 1
  den : Nat := 1
  jump : Nat := 0
  ref : Nat := 0
  refValid : Bool := false
  residue : Nat := 0
  route : Option Route := none
  seg : Segment := {}
  deriving DecidableEq, Repr

/-- A cluster of the Valve Image (R80). -/
structure Cluster where
  value : Word16 := 0
  seen : Bool := false
  deriving DecidableEq, Repr

/-- An entry of a Route Bank (R81). -/
structure RouteEntry where
  valid : Bool := false
  meter : Nat := 0
  src : Nat := 0
  dst : Nat := 0
  count : Nat := 0
  c1 : RouteCond := ⟨0, 0, 0⟩
  c2 : RouteCond := ⟨0, 0, 0⟩
  deriving DecidableEq, Repr

/-! ## Fillers and batches -/

/-- What opened a batch (R98). -/
inductive OpenCause
  | telegram | command | auto
  deriving DecidableEq, Repr

/-- Why a batch closed; `stillOpen` reads OPEN (R98). -/
inductive CloseReason
  | telegram | idle | cip | superseded | clear | stillOpen
  deriving DecidableEq, Repr

/-- A batch record (R98). The code is its 18-digit number; the total volume is the sum of `list`. -/
structure Batch where
  serial : Nat
  code : Nat
  filler : Nat
  number : Nat
  product : Nat
  declared : Cat
  openTime : TimeStamp
  cause : OpenCause
  indefinite : Bool
  unsent : Bool
  firstSerial : Option Nat
  list : List Share
  cat : Cat
  uncertain : Bool
  mismatch : Bool
  suspect : Bool
  produced : Nat
  dispatched : Nat
  closeTime : Option TimeStamp
  reason : CloseReason
  deriving DecidableEq, Repr

/-- The state of a filler record (R97). -/
inductive FillerState
  | idle | batchOpen | cleaning
  deriving DecidableEq, Repr

/-- A filler record (R97). `timer` is none while STOPPED, else the expiry instant on the
reference clock's count `Mgmt.elapsed` (log 12). `ring` stands oldest first. -/
structure Filler where
  state : FillerState := .idle
  lastCarton : Nat := 0
  seen : Bool := false
  seq : Nat := 1
  lastFlow : TimeStamp := ⟨0, 0, 0⟩
  timer : Option Nat := none
  pendingIdle : Option (Nat × TimeStamp) := none
  ring : List Batch := []
  deriving DecidableEq, Repr

/-! ## The Trace Engine's lineage state -/

/-- The minimum table of R10. -/
def minCategoryTable : Vector (Vector (Fin 8) 8) 8 :=
  #v[#v[0, 0, 0, 0, 0, 0, 0, 0], #v[0, 1, 1, 1, 1, 1, 1, 1], #v[0, 1, 2, 2, 2, 2, 2, 2],
     #v[0, 1, 2, 3, 3, 3, 3, 3], #v[0, 1, 2, 3, 4, 4, 4, 4], #v[0, 1, 2, 3, 4, 5, 5, 5],
     #v[0, 1, 2, 3, 4, 5, 6, 6], #v[0, 1, 2, 3, 4, 5, 6, 7]]

/-- The lineage state (00_scope, Trace Engine row). The two record tables are lists of
(entry index, record) with indices strictly rising; an unlisted index is a free entry (R45). -/
structure Lineage where
  vessels : Vector Vessel 64 := Vector.replicate 64 {}
  catTab : Vector (Vector (Fin 8) 8) 8 := minCategoryTable
  meters : Vector Meter 48 := Vector.replicate 48 {}
  colls : List (Nat × CollRec) := []
  blends : List (Nat × BlendRec) := []
  collNext : Nat := 1
  blendNext : Nat := 1
  rings : Vector Ring 8 := Vector.replicate 8 {}
  clusters : Vector Cluster 32 := Vector.replicate 32 {}
  bankA : Vector RouteEntry 128 := Vector.replicate 128 {}
  bankB : Vector RouteEntry 128 := Vector.replicate 128 {}
  active : Bank := .a
  fillers : Vector Filler 8 := Vector.replicate 8 {}
  batchNext : Nat := 1
  farms : List Nat := []
  deriving DecidableEq, Repr

/-! ## The Event Queue -/

/-- The values of a MANIFEST item, the volume already in centilitres (R63, R151). -/
structure ManifestItem where
  bay : Nat
  tanker : Nat
  comp : Nat
  farm : Nat
  vol : Nat
  cat : Nat
  sample : Option Nat
  collTime : Option TimeStamp
  deriving DecidableEq, Repr

/-- The kinds of queue entry with the object and values of each (R155). -/
inductive EntryVal
  | meter (m total : Nat)
  | valve (cluster : Nat) (value : Word16)
  | manifest (i : ManifestItem)
  | compSelect (bay tanker comp : Nat)
  | compDone (bay : Nat)
  | compReject (bay tanker comp : Nat)
  | cipStart (vessel : Nat)
  | cipEnd (vessel : Nat)
  | batchOpen (filler product cat : Nat)
  | batchClose (filler : Nat)
  | carton (filler serial : Nat)
  | dispatch (code : List Byte) (count note : Nat)
  | idleClose (filler serial : Nat) (expiry : TimeStamp)
  | gap (count : Nat)
  | switchBank
  | vesselWrite (w : WriteArgs)
  | manualTransfer (src dst vol : Nat)
  | suspectKey (key : RawKey)
  | suspectSample (sample : Nat)
  | suspectFarm (farm : Nat)
  | releaseKey (key : RawKey)
  | releaseSample (sample : Nat)
  | releaseFarm (farm : Nat)
  | holdRelease (arg : Nat)
  deriving DecidableEq, Repr

/-- An entry of the Event Queue (R155). `command` says that a queued command offered it, which
R101 reads as the opening cause; otherwise the tag is 0. -/
structure Entry where
  val : EntryVal
  arrival : TimeStamp
  tag : Nat
  command : Bool
  deriving DecidableEq, Repr

/-- An entry the engine has taken, with the Plant Clock's reading at the taking, which R46 reads as
the intake time of a MANIFEST. -/
structure TakenEntry extends Entry where
  takenAt : TimeStamp
  deriving DecidableEq, Repr

/-! ## Management commands -/

/-- Direct commands answered at once (section 11.2). -/
inductive AtOnce
  | status
  | loadMatch (index : Nat) (e : MatchEntry)
  | loadFilter (f : TelegramFilter)
  | loadOverride (slot : Nat) (o : Override)
  | setManagers (first second : Nat)
  | journalFetch (start : Seq)
  | journalRelease (newest : Seq)
  deriving DecidableEq, Repr

/-- Direct commands carried out between operations (section 11.2). -/
inductive Between
  | loadVessel (index : Nat) (cfg : VesselCfg)
  | loadMeter (index width num den jump : Nat)
  | loadRoute (r : RouteArgs)
  | loadCategory (cells : List Nat)
  | loadPolicy (p : PolicyArgs)
  | loadOutput (pin source filler polarity : Nat)
  | setPlant (plant : Nat)
  | setSerials (coll blend batch : Nat)
  | setClock (day sec hund : Nat)
  | readVessel (index : Nat)
  | readKey (key : RawKey)
  | readBatch (filler position : Nat)
  | readBay (index : Nat)
  | readMeter (index : Nat)
  deriving DecidableEq, Repr

/-- A command frame's command, by the class that decides when it is carried out. -/
inductive Command
  | atOnce (c : AtOnce)
  | between (c : Between)
  | queued (v : EntryVal)
  | clear
  deriving DecidableEq, Repr

/-- What waits for the engine: a direct command between operations, or a CLEAR_ENGINE. -/
inductive WaitCmd
  | between (c : Between)
  | clear
  deriving DecidableEq, Repr

/-- A waiting direct command (R175). `lost` says that its port's link went down after it was
taken, so that its reply will be discarded (R174). -/
structure Waiting where
  port : Port
  source : Nat
  tag : Nat
  lost : Bool
  cmd : WaitCmd
  deriving DecidableEq, Repr

/-! ## The Condition and Hold unit -/

/-- The bay, tanker, compartment and farm a MANIFEST or COMP_ condition carries (R66). -/
structure IntakeWho where
  vessel : Option Nat
  bay : Nat
  tanker : Nat
  comp : Nat
  farm : Nat
  deriving DecidableEq, Repr

/-- The cause of COMPARTMENT_UNKNOWN (R63, R68, R70). -/
inductive UnknownCause
  | noBay | invalidField | noMatch | notDischarging
  deriving DecidableEq, Repr

/-- The twenty condition kinds with the values each carries (section 8.2), in row order. -/
inductive CondVals
  | overdraw (src dst vol excess : Nat)
  | intakeExcess (bay slot tanker comp dst vol excess : Nat)
  | overfill (dst discarded : Nat)
  | unrouted (meter vol : Nat)
  | meterStep (meter oldRef newTotal : Nat)
  | meterJump (meter vol : Nat)
  | gap (count : Nat)
  | truncated (vessel removed : Nat)
  | collTableFull (who : IntakeWho)
  | bayRingFull (who : IntakeWho)
  | compartmentFull (who : IntakeWho) (slot : Nat)
  | compartmentUnknown (who : IntakeWho) (cause : UnknownCause)
  | noBatch (filler serial : Nat)
  | codeExhausted (filler serial : Nat)
  | codeUnsent (filler serial : Nat) (port : Port)
  | categoryChange (dst : Nat) (old new : Fin 8)
  | cleaningFlow (meter src dst vol : Nat)
  | dispatchSuspect (serial note : Nat)
  | dispatchUnresolved (code : List Byte) (note : Nat)
  | dispatchExcess (serial produced dispatched : Nat)
  deriving DecidableEq, Repr

/-- A hold target (R132). -/
inductive HoldTarget
  | noHold | namedFiller | allFillers | dispatch
  deriving DecidableEq, Repr

/-- A row of the Condition Policy Table (R132). -/
structure PolicyRow where
  report : Bool := true
  target : HoldTarget := .noHold
  deriving DecidableEq, Repr

/-- A set of condition kinds: bit n stands for row n (R135; R185 sends it so). -/
abbrev CondSet := BitVec 20

/-- The content causes in force (R136). -/
structure Causes where
  suspect : Bool := false
  uncertain : Bool := false
  mismatch : Bool := false
  deriving DecidableEq, Repr

/-- The three parts of a hold's state (R137). -/
structure HoldView where
  asserted : Bool := false
  latch : CondSet := 0
  causes : Causes := {}
  deriving DecidableEq, Repr

/-- A source of the Output Map (R141). -/
inductive PinSource
  | none | fillerHold | dispatchHold | anyHold | engineStalled | forcedOn
  deriving DecidableEq, Repr

/-- An entry of the Output Map (R141, R142). -/
structure OutEntry where
  source : PinSource := .none
  filler : Nat := 0
  activeLow : Bool := false
  deriving DecidableEq, Repr

/-- The power-on Condition Policy Table (R132). -/
def defaultPolicy : Vector PolicyRow 20 :=
  #v[{}, {}, {}, {}, {}, {}, {}, {}, {}, {}, {}, {}, {},
     ⟨true, .namedFiller⟩, ⟨true, .namedFiller⟩, {}, {},
     ⟨true, .dispatch⟩, ⟨true, .dispatch⟩, ⟨true, .dispatch⟩]

/-- The Condition and Hold unit (R132 to R143). Holds 0 to 7 are the fillers', hold 8 the
dispatch gate's. `shown` is each hold's state at the end of the last evaluation (R137). -/
structure HoldUnit where
  policy : Vector PolicyRow 20 := defaultPolicy
  suspectOn : Bool := true
  uncertainOn : Bool := true
  mismatchOn : Bool := true
  counters : Vector Nat 20 := Vector.replicate 20 0
  latches : Vector CondSet 9 := Vector.replicate 9 0
  shown : Vector HoldView 9 := Vector.replicate 9 {}
  outMap : Vector OutEntry 12 := Vector.replicate 12 {}
  deriving DecidableEq, Repr

/-! ## The Trace Journal -/

/-- Why a compartment slot was closed (R69). -/
inductive SlotReason
  | done | rejected | cleaned
  deriving DecidableEq, Repr

/-- Why a segment was closed with a record (R88). -/
inductive SegReason
  | route | switch | limit
  deriving DecidableEq, Repr

/-- The action of a VESSEL record (R185). -/
inductive VesselAction
  | write | cipStart | cipEnd
  deriving DecidableEq, Repr

/-- The action of a HOLD record (R138). -/
inductive HoldAction
  | evaluate | release | clear
  deriving DecidableEq, Repr

/-- What a DONE MANUAL record carries beside its arguments (R44). -/
structure ManualDone where
  portions : List Share
  discarded : Nat
  stepA : Bool
  stepB : Bool
  truncated : Bool
  deriving DecidableEq, Repr

/-- Which suspect command, with its argument (R127). -/
inductive MarkArg
  | key (k : RawKey)
  | sample (n : Nat)
  | farm (n : Nat)
  deriving DecidableEq, Repr

/-- What a SUSPECT or RELEASE record carries (R127). -/
structure SweepReport where
  arg : MarkArg
  result : Status
  marks : Nat := 0
  directChanged : Bool := false
  blendFlags : Nat := 0
  passes : Nat := 0
  vessels : Nat := 0
  batches : Nat := 0
  farms : Nat := 0
  deriving DecidableEq, Repr

/-- A COMPARTMENT record's values (R69). -/
structure CompartmentRec where
  vessel : Nat
  bay : Nat
  slot : Nat
  tanker : Nat
  comp : Nat
  openTime : TimeStamp
  manifest : Nat
  drawn : Nat
  remaining : Nat
  reason : SlotReason
  shares : List CompShare
  deriving DecidableEq, Repr

/-- A SEGMENT record's values (R88). -/
structure SegmentRec where
  meter : Nat
  route : Option Route
  start : TimeStamp
  stop : TimeStamp
  vol : Nat
  flags : SegFlags
  reason : SegReason
  deriving DecidableEq, Repr

/-- A VESSEL record's values (R185). -/
structure VesselRec where
  vessel : Nat
  action : VesselAction
  result : Status
  cat : Cat := Option.none
  uncertain : Bool := false
  content : Nat := 0
  count : Nat := 0
  list : List Share := []
  deriving DecidableEq, Repr

/-- A CONDITION record's values (R134). -/
structure ConditionRec where
  vals : CondVals
  counter : Nat
  filler : Option Nat
  target : HoldTarget
  touched : List (Nat × Bool)
  deriving DecidableEq, Repr

/-- A HOLD record's values (R138). `hold` is the argument byte form: 0 to 7, 0xFD for DISPATCH,
or the byte of a refused HOLD_RELEASE. -/
structure HoldRec where
  hold : Nat
  action : HoldAction
  result : Status
  before : HoldView
  after : HoldView
  batch : Option Nat
  deriving DecidableEq, Repr

/-- The payloads of the seventeen record kinds (R165). -/
inductive Payload
  | collection (r : CollRec)
  | compartment (r : CompartmentRec)
  | blend (r : BlendRec)
  | truncation (vessel : Nat) (time : TimeStamp) (removed : List Share)
  | segment (r : SegmentRec)
  | manual (result : Status) (src dst vol : Nat) (done : Option ManualDone)
  | vessel (r : VesselRec)
  | batchOpenRefused (result : Status) (filler product cat : Nat)
  | batchOpened (b : Batch) (evicted : Option Nat)
  | batchCloseRefused (result : Status) (filler : Nat)
  | batchClosed (b : Batch) (expiry : Option TimeStamp)
  | batchFlag (suspect : Bool) (b : Batch) (isOpen : Bool)
  | dispatched (code : List Byte) (count note serial filler produced total : Nat)
  | dispatchUnresolved (code : List Byte) (count note : Nat)
  | condition (r : ConditionRec)
  | hold (r : HoldRec)
  | sweep (release : Bool) (r : SweepReport)
  | engineClear (removed gap closed : Nat)
  | engineSwitch (active : Bank)
  | engineClock (before : TimeStamp) (wasSet : Bool)
  deriving DecidableEq, Repr

/-- A journal record (R163). -/
structure JournalRec where
  seq : Seq
  time : TimeStamp
  tag : Nat
  payload : Payload
  deriving DecidableEq, Repr

/-- The Trace Journal (R163, R171). `records` holds the unreleased records, oldest first. -/
structure Journal where
  oldest : Seq := 1
  published : Seq := 1
  written : Seq := 1
  records : List JournalRec := []
  deriving DecidableEq, Repr

/-! ## The ports -/

/-- A reply of the Management unit (R172, R183). -/
structure Reply where
  dst : Nat
  code : Nat
  tag : Nat
  status : Status
  args : List Byte
  deriving DecidableEq, Repr

/-- A code notice, composed from the batch record (R104, R184). -/
structure Notice where
  dst : Nat
  plant : Nat
  number : Nat
  serial : Nat
  code : Nat
  product : Nat
  declared : Cat
  firstSerial : Option Nat
  deriving DecidableEq, Repr

/-- A frame the part originates (R147). -/
inductive Injected
  | reply (r : Reply)
  | notice (n : Notice)
  deriving DecidableEq, Repr

/-- A port (R145 to R148, R174). `fwd` is the forwarding buffer TOWARDS this port. `lastSent` is
the model's own output field: the frame this port's transmitter last sent (log 9). -/
structure PortState where
  linkUp : Bool := false
  fwd : List Frame := []
  inj : List Injected := []
  deferral : Nat := 0
  reservations : Nat := 0
  rxErrors : Nat := 0
  fwdSent : Nat := 0
  fwdDrops : Nat := 0
  linkLoss : Nat := 0
  lastSent : Option Frame := none
  deriving DecidableEq, Repr

/-! ## The Telegram Decoder -/

/-- A Match Table entry after power-on reset: invalid with all fields 0 (R150, log 30). -/
def matchEntryReset : MatchEntry :=
  { valid := false, base := 0, limit := 0, kind := 0, cls := .meter, objBase := 0, count := 0,
    stride := 0, fields := [⟨0, 0⟩], volUnit := .cl }

/-- The Telegram Decoder (R149 to R154) with the readings-dropped counter of R157. -/
structure Decoder where
  filter : TelegramFilter := ⟨0, 0, 1, 0⟩
  matchTable : Vector MatchEntry 64 := Vector.replicate 64 matchEntryReset
  overrides : Vector Override 4 := Vector.replicate 4 ⟨false, 0, 0, 0⟩
  valveFilter : Vector (Option Word16) 32 := Vector.replicate 32 Option.none
  framesDecoded : Nat := 0
  unmatched : Nat := 0
  shortTelegrams : Nat := 0
  itemsOffered : Nat := 0
  readingsDropped : Nat := 0
  deriving DecidableEq, Repr

/-! ## The Management unit -/

/-- The Management unit (R172, R173, R177 to R180). A manager place holding 0 is empty.
`elapsed` counts the hundredths of REFCLK since the release of RESET (R113, log 12). -/
structure Mgmt where
  strap : BitVec 6 := 0
  manager0 : Nat := 0
  manager1 : Nat := 0
  plant : Nat := 0
  clock : TimeStamp := ⟨0, 0, 0⟩
  clockSet : Bool := false
  elapsed : Nat := 0
  versionDrops : Nat := 0
  replyDrops : Nat := 0
  refusals : Nat := 0
  deriving DecidableEq, Repr

/-! ## The whole part -/

/-- The part's state. `inFlight` is the entry whose operation is in flight (R159); `waiting` the
direct commands that wait for the engine (R175, R182); `pending` the commands not yet taken by
the model's step, first in, first out. -/
structure State where
  resetAsserted : Bool
  portA : PortState
  portB : PortState
  dec : Decoder
  evq : List Entry
  inFlight : Option TakenEntry
  waiting : List Waiting
  lin : Lineage
  hold : HoldUnit
  jrn : Journal
  mgmt : Mgmt
  pending : List Instr
  deriving DecidableEq, Repr

/-- No meaning of the part ends in a fault: the spec answers every refused command with a status
or a result, and describes no stop. -/
inductive Fault
  deriving DecidableEq, Repr

/-- The reasons a step is refused. -/
inductive Refusal
  /-- Raised by an arm of `exec` whose command has no meaning yet (safe). No arm raises it. -/
  | notModelled (mnemonic : String)
  deriving DecidableEq, Repr

/-- The part right after reset: RESET released, every block at its power-on values (R21, R22,
R59, R79, R96, R118, R119, R143, R145 to R154, R171, R177 to R182). The strap value 0 is a
DESIGN CHOICE (log 5). -/
def State.reset : State :=
  { resetAsserted := false, portA := {}, portB := {}, dec := {}, evq := [], inFlight := none,
    waiting := [], lin := {}, hold := {}, jrn := {}, mgmt := {}, pending := [] }

end Sys2Proof.Machine
end

