-- ==== Sys2Proof/Machine/Ops.lean ====
section
/-! DEFINITION. The named operations over the part's tables and records: updating a block, table
reads and writes, the clock and the journal, the record tables with their reference counts, the
views of vessels and fillers, and raising a condition. -/

namespace Sys2Proof

/-- The port a frame received on `p` is forwarded to (R145). -/
def Port.other : Port → Port
  | .a => .b
  | .b => .a

/-- One reading is not later than another (R114). -/
def TimeStamp.le (a b : TimeStamp) : Bool :=
  a.day < b.day || (a.day == b.day && (a.sec < b.sec || (a.sec == b.sec && a.hund ≤ b.hund)))

end Sys2Proof

namespace Sys2Proof.Machine

open Sys2Proof

/-! ## Reading and writing tables by number -/

/-- The entry of a table at an index, `d` beyond its end (log 20). -/
def vget {α : Type} {n : Nat} (v : Vector α n) (i : Nat) (d : α) : α := v[i]?.getD d

/-- A table with one entry replaced; unchanged beyond its end (log 20). -/
def vset {α : Type} {n : Nat} (v : Vector α n) (i : Nat) (x : α) : Vector α n :=
  v.setIfInBounds i x

/-- One more on a counter that stays at its 32-bit top (R133, R145, R152, R173). -/
def tick32 (n : Nat) : Nat := if n < Config.count32Max then n + 1 else n

/-- A count grown by `k`, stopping at its 32-bit top (R115, R116, R146). -/
def grow32 (n k : Nat) : Nat := min (n + k) Config.count32Max

/-! ## Updating one block of the state -/

def State.setLin (s : State) (l : Lineage) : State := { s with lin := l }
def State.setHold (s : State) (h : HoldUnit) : State := { s with hold := h }
def State.setJrn (s : State) (j : Journal) : State := { s with jrn := j }
def State.setMgmt (s : State) (m : Mgmt) : State := { s with mgmt := m }
def State.setDec (s : State) (d : Decoder) : State := { s with dec := d }
def State.setEvq (s : State) (q : List Entry) : State := { s with evq := q }
def State.setInFlight (s : State) (e : Option TakenEntry) : State := { s with inFlight := e }
def State.setWaiting (s : State) (w : List Waiting) : State := { s with waiting := w }

/-- The state of a port. -/
def State.port (s : State) : Port → PortState
  | .a => s.portA
  | .b => s.portB

def State.setPort (s : State) (p : Port) (x : PortState) : State :=
  match p with
  | .a => { s with portA := x }
  | .b => { s with portB := x }

/-! ## The Plant Clock -/

/-- The present Plant Clock reading (R178). -/
def State.now (s : State) : TimeStamp := s.mgmt.clock

/-- The code day: the clock's day while it is set, else 0 (R105, R178). -/
def Mgmt.codeDay (m : Mgmt) : Nat := if m.clockSet then m.clock.day else 0

/-- The part's station address (R172). -/
def State.station (s : State) : Nat := Config.stationBase + s.mgmt.strap.toNat

/-! ## The journal -/

/-- The number of unreleased records, U (R163). -/
def Journal.unreleased (j : Journal) : Nat := (j.written - j.oldest).toNat

/-- The free places (R163). -/
def Journal.free (j : Journal) : Nat := Config.journalSize - j.unreleased

/-- The number of published records, P (R168). -/
def Journal.publishedCount (j : Journal) : Nat := (j.published - j.oldest).toNat

/-- Writing one record: it takes the written sequence, which advances (R163). -/
def Journal.write (j : Journal) (time : TimeStamp) (tag : Nat) (p : Payload) : Journal :=
  { j with records := j.records ++ [⟨j.written, time, tag, p⟩], written := j.written + 1 }

/-- Publishing what has been written (R164). -/
def Journal.publish (j : Journal) : Journal := { j with published := j.written }

/-- A record written at the present time (R163). -/
def State.write (s : State) (tag : Nat) (p : Payload) : State :=
  s.setJrn (s.jrn.write s.now tag p)

/-! ## Lists of shares -/

/-- The sum of a list's volumes (R7). -/
def total (l : List Share) : Nat := (l.map Share.vol).sum

/-- The keys of a list. -/
def keysOf (l : List Share) : List Key := l.map Share.key

/-- A list carries a key. -/
def hasKey (l : List Share) (k : Key) : Bool := l.any (fun x => x.key == k)

/-! ## The record tables -/

/-- The members of a blend record; none in an opaque one (R49). -/
def BlendRec.members (b : BlendRec) : List Share :=
  match b.info with
  | none => []
  | some i => i.members

/-- A new record in the lowest-indexed free entry (R45): `i` is the lowest index not yet passed. -/
def insertLowest {α : Type} (r : α) : Nat → List (Nat × α) → List (Nat × α)
  | i, [] => [(i, r)]
  | i, (j, x) :: t => if j == i then (j, x) :: insertLowest r (i + 1) t else (i, r) :: (j, x) :: t

/-- The entry holding the collection of a serial, with its index (R45). -/
def Lineage.findColl (l : Lineage) (n : Nat) : Option (Nat × CollRec) :=
  l.colls.find? (fun p => p.2.serial == n)

/-- The entry holding the blend of a serial, with its index (R45). -/
def Lineage.findBlend (l : Lineage) (n : Nat) : Option (Nat × BlendRec) :=
  l.blends.find? (fun p => p.2.serial == n)

/-- A key is resident: its record stands in its table (R8, R45). U-0 has no record. -/
def Lineage.resident (l : Lineage) : Key → Bool
  | .unknown => false
  | .coll n => (l.findColl n).isSome
  | .blend n => (l.findBlend n).isSome

/-- Change the collection record of a serial. -/
def Lineage.updColl (l : Lineage) (n : Nat) (f : CollRec → CollRec) : Lineage :=
  { l with colls := l.colls.map (fun p => if p.2.serial == n then (p.1, f p.2) else p) }

/-- Change the blend record of a serial. -/
def Lineage.updBlend (l : Lineage) (n : Nat) (f : BlendRec → BlendRec) : Lineage :=
  { l with blends := l.blends.map (fun p => if p.2.serial == n then (p.1, f p.2) else p) }

/-- Free the entry of a collection (R54). -/
def Lineage.dropColl (l : Lineage) (n : Nat) : Lineage :=
  { l with colls := l.colls.filter (fun p => p.2.serial != n) }

/-- Free the entry of a blend (R54). -/
def Lineage.dropBlend (l : Lineage) (n : Nat) : Lineage :=
  { l with blends := l.blends.filter (fun p => p.2.serial != n) }

/-- Place a new collection record (R45). -/
def Lineage.addColl (l : Lineage) (r : CollRec) : Lineage :=
  { l with colls := insertLowest r 0 l.colls }

/-- Place a new blend record (R45). -/
def Lineage.addBlend (l : Lineage) (r : BlendRec) : Lineage :=
  { l with blends := insertLowest r 0 l.blends }

/-- The free entries of the Collection Table. -/
def Lineage.freeColls (l : Lineage) : Nat := Config.collTableSize - l.colls.length

/-- The free entries of the Blend Table. -/
def Lineage.freeBlends (l : Lineage) : Nat := Config.blendTableSize - l.blends.length

/-- The serial after another, with the wrap of R50. -/
def nextSerial (n : Nat) : Nat := if n < Config.serialMax then n + 1 else 1

/-- The serial a counter issues: the first from its value that is not taken (R50, R100). `fuel`
exceeds the number of taken serials, so the search ends. -/
def issueSerial (taken : Nat → Bool) : Nat → Nat → Nat
  | 0, c => c
  | fuel + 1, c => if taken c then issueSerial taken fuel (nextSerial c) else c

/-- The collection serial the counter issues next (R50). -/
def Lineage.issueColl (l : Lineage) : Nat :=
  issueSerial (fun n => l.resident (.coll n)) (l.colls.length + 1) l.collNext

/-- The blend serial the counter issues next (R50). -/
def Lineage.issueBlend (l : Lineage) : Nat :=
  issueSerial (fun n => l.resident (.blend n)) (l.blends.length + 1) l.blendNext

/-- The batch serial the counter issues next: none of a record in the rings (R100). -/
def Lineage.issueBatch (l : Lineage) : Nat :=
  issueSerial (fun n => l.fillers.toList.any (fun f => f.ring.any (fun b => b.serial == n)))
    ((l.fillers.toList.map (fun f => f.ring.length)).sum + 1) l.batchNext

/-! ## Reference counts -/

/-- A key gains one reference; U-0 has none (R52). -/
def Lineage.addRef (l : Lineage) : Key → Lineage
  | .unknown => l
  | .coll n => l.updColl n (fun r => { r with refs := r.refs + 1 })
  | .blend n => l.updBlend n (fun r => { r with refs := r.refs + 1 })

/-- The keys of a list each gain one reference, in order. -/
def Lineage.addRefs (l : Lineage) (ks : List Key) : Lineage :=
  ks.foldl Lineage.addRef l

/-- Releasing a key (R53, R54): its count falls by one; at 0 its record is freed and, for a blend,
its members are released in list order, each with its whole cascade. `fuel` bounds the nesting:
every level frees a blend, so one more than the resident blends is enough. -/
def Lineage.releaseKey : Nat → Key → Lineage → Lineage
  | 0, _, l => l
  | fuel + 1, k, l =>
    match k with
    | .unknown => l
    | .coll n =>
      match l.findColl n with
      | none => l
      | some (_, r) =>
        if r.refs ≤ 1 then l.dropColl n else l.updColl n (fun x => { x with refs := x.refs - 1 })
    | .blend n =>
      match l.findBlend n with
      | none => l
      | some (_, r) =>
        if r.refs ≤ 1 then
          (keysOf r.members).foldl (fun acc m => Lineage.releaseKey fuel m acc) (l.dropBlend n)
        else l.updBlend n (fun x => { x with refs := x.refs - 1 })

/-- Releasing one key with the fuel it needs. -/
def Lineage.release (l : Lineage) (k : Key) : Lineage :=
  Lineage.releaseKey (l.blends.length + 2) k l

/-- Releasing a whole list's keys one after another, in list order (R53). -/
def Lineage.releaseAll (l : Lineage) (ks : List Key) : Lineage :=
  ks.foldl Lineage.release l

/-! ## Vessels and fillers -/

/-- A vessel by index; an unconfigured one beyond the table (R176). -/
def Lineage.vessel (l : Lineage) (v : Nat) : Vessel := vget l.vessels v {}

def Lineage.setVessel (l : Lineage) (v : Nat) (x : Vessel) : Lineage :=
  { l with vessels := vset l.vessels v x }

/-- A filler record by index. -/
def Lineage.filler (l : Lineage) (f : Nat) : Filler := vget l.fillers f {}

def Lineage.setFiller (l : Lineage) (f : Nat) (x : Filler) : Lineage :=
  { l with fillers := vset l.fillers f x }

/-- A compartment ring by bay index. -/
def Lineage.ring (l : Lineage) (b : Nat) : Ring := vget l.rings b {}

def Lineage.setRing (l : Lineage) (b : Nat) (x : Ring) : Lineage :=
  { l with rings := vset l.rings b x }

/-- A meter by index. -/
def Lineage.meter (l : Lineage) (m : Nat) : Meter := vget l.meters m {}

def Lineage.setMeter (l : Lineage) (m : Nat) (x : Meter) : Lineage :=
  { l with meters := vset l.meters m x }

/-- The vessel of kind BAY that carries a bay index (R1: at most one). -/
def Lineage.bayVessel (l : Lineage) (bay : Nat) : Option Nat :=
  (List.range 64).find? (fun v => (l.vessel v).kind == .bay && (l.vessel v).bayIndex == bay)

/-- The vessel of kind FILLER that carries a filler index (R1: at most one). -/
def Lineage.fillerVessel (l : Lineage) (f : Nat) : Option Nat :=
  (List.range 64).find? (fun v => (l.vessel v).kind == .filler && (l.vessel v).fillerIndex == f)

/-- Change the newest record of a ring. -/
def modifyLast (g : Batch → Batch) : List Batch → List Batch
  | [] => []
  | [b] => [g b]
  | b :: c :: t => b :: modifyLast g (c :: t)

/-- The open batch of a filler record: its newest record while the state is BATCH_OPEN (R97). -/
def Filler.openBatch (f : Filler) : Option Batch :=
  if f.state == .batchOpen then f.ring.getLast? else none

/-- Change the open batch, if there is one. -/
def Filler.modifyOpen (f : Filler) (g : Batch → Batch) : Filler :=
  if f.state == .batchOpen then { f with ring := modifyLast g f.ring } else f

/-- The open batch of a FILLER vessel. -/
def Lineage.openBatchOf (l : Lineage) (v : Vessel) : Option Batch :=
  (l.filler v.fillerIndex).openBatch

/-- Change the open batch of the filler of a FILLER vessel. -/
def Lineage.modifyOpenOf (l : Lineage) (v : Vessel) (g : Batch → Batch) : Lineage :=
  l.setFiller v.fillerIndex ((l.filler v.fillerIndex).modifyOpen g)

/-- The state of a vessel: a FILLER follows its filler record (R5). -/
def Lineage.vesselState (l : Lineage) (v : Vessel) : VesselState :=
  match v.kind with
  | .filler => if (l.filler v.fillerIndex).state == .cleaning then .cleaning else .holding
  | _ => v.state

/-- A vessel is CLEANING (R89, R43). -/
def Lineage.isCleaning (l : Lineage) (v : Nat) : Bool :=
  l.vesselState (l.vessel v) == .cleaning

/-- The total volume of a batch (R98). -/
def Batch.volume (b : Batch) : Nat := total b.list

/-- The manifest total M of a slot (R61). -/
def Slot.manifestTotal (c : Slot) : Nat := (c.shares.map CompShare.manifest).sum

/-- The remaining total of a slot (R61). -/
def Slot.remainingTotal (c : Slot) : Nat := (c.shares.map CompShare.remaining).sum

/-- The content of a ring: the remaining totals of its slots (R7). -/
def Ring.content (r : Ring) : Nat := (r.slots.toList.map Slot.remainingTotal).sum

/-- The content volume of a vessel (R7). -/
def Lineage.content (l : Lineage) (v : Vessel) : Nat :=
  match v.kind with
  | .unconfigured => 0
  | .store => total v.list
  | .bay => (l.ring v.bayIndex).content
  | .filler =>
    match l.openBatchOf v with
    | none => 0
    | some b => b.volume

/-- The category of a vessel as it is read: a FILLER reads its open batch's (R9). -/
def Lineage.catOf (l : Lineage) (v : Vessel) : Cat :=
  match v.kind with
  | .filler =>
    match l.openBatchOf v with
    | none => none
    | some b => b.cat
  | _ => v.cat

/-- The filler a condition names for a destination: its index when it is a FILLER (R131). -/
def Lineage.namedFiller (l : Lineage) (v : Nat) : Option Nat :=
  if (l.vessel v).kind == .filler then some (l.vessel v).fillerIndex else none

/-! ## Raising a condition -/

/-- The row of a condition kind (section 8.2). -/
def CondVals.row : CondVals → Nat
  | .overdraw .. => 0
  | .intakeExcess .. => 1
  | .overfill .. => 2
  | .unrouted .. => 3
  | .meterStep .. => 4
  | .meterJump .. => 5
  | .gap .. => 6
  | .truncated .. => 7
  | .collTableFull .. => 8
  | .bayRingFull .. => 9
  | .compartmentFull .. => 10
  | .compartmentUnknown .. => 11
  | .noBatch .. => 12
  | .codeExhausted .. => 13
  | .codeUnsent .. => 14
  | .categoryChange .. => 15
  | .cleaningFlow .. => 16
  | .dispatchSuspect .. => 17
  | .dispatchUnresolved .. => 18
  | .dispatchExcess .. => 19

/-- A set holds the kind of a row. -/
def CondSet.has (c : CondSet) (row : Nat) : Bool := c.getLsbD row

/-- A set with the kind of a row added. -/
def CondSet.add (c : CondSet) (row : Nat) : CondSet := c ||| (1#20 <<< row)

/-- The holds a raise latches: filler indices, or 8 for the dispatch hold (R132). For ALL_FILLERS they
stand in ascending filler index, in which order the CONDITION record lists them (R134): the model's choice
(log 17). -/
def Lineage.latchTargets (l : Lineage) (target : HoldTarget) (filler : Option Nat) : List Nat :=
  match target with
  | .noHold => []
  | .namedFiller => filler.toList
  | .allFillers => (List.range 8).filter (fun f => (l.fillerVessel f).isSome)
  | .dispatch => [8]

/-- The latch set of a hold. -/
def HoldUnit.latch (h : HoldUnit) (i : Nat) : CondSet := vget h.latches i 0

/-- Step 1 of a raise: the counter of the kind (R133). -/
def HoldUnit.count (h : HoldUnit) (row : Nat) : HoldUnit :=
  { h with counters := vset h.counters row (tick32 (vget h.counters row 0)) }

/-- Step 3 of a raise: the kind joins each latch set named (R132). -/
def HoldUnit.latchAll (h : HoldUnit) (row : Nat) (targets : List Nat) : HoldUnit :=
  targets.foldl (fun h i => { h with latches := vset h.latches i ((h.latch i).add row) }) h

/-- Counting a kind alone: step 1 of R130, to which R32 confines a draw from an UNSEEDED STORE
whose row has report no. -/
def State.countOnly (s : State) (row : Nat) : State := s.setHold (s.hold.count row)

/-- Raising a condition: count, report, latch, in that order (R130, R132 to R134). -/
def State.raise (s : State) (tag : Nat) (filler : Option Nat) (c : CondVals) : State :=
  let row := c.row
  let pol := vget s.hold.policy row {}
  let targets := s.lin.latchTargets pol.target filler
  let counted := s.countOnly row
  let reported :=
    if pol.report then
      counted.write tag (.condition
        { vals := c, counter := vget counted.hold.counters row 0, filler := filler,
          target := pol.target,
          touched := targets.map (fun i => (i, !(s.hold.latch i).has row)) })
    else counted
  reported.setHold (reported.hold.latchAll row targets)

end Sys2Proof.Machine
end

