-- ==== Sys2Proof/Machine/Operands.lean ====
section
/-! DEFINITION. Operand forms: keys, categories and choices as commands carry them, and big-endian
numbers read from the bytes of a frame. -/

namespace Sys2Proof.Machine

open Sys2Proof

/-! ## Values as commands carry them -/

/-- A serial a key may carry (R8). -/
def serialOk (n : Nat) : Bool := 1 ≤ n && n ≤ Config.serialMax

/-- A category byte: 0 to 7, or 0xFF for NONE; anything else is refused (R18, R101). -/
def catOfByte (n : Nat) : Option Cat :=
  if n == 0xFF then some none
  else if n ≤ 7 then some (some (Fin.ofNat 8 n))
  else none

/-- A yes or no, or a set or clear, byte: 1 or 0 (R183). -/
def flagOfByte (n : Nat) : Option Bool :=
  if n == 1 then some true else if n == 0 then some false else none

/-- A flag byte that has passed its check. -/
def flagSet (n : Nat) : Bool := n == 1

/-- A port byte (section 12.1). -/
def portOfByte (n : Nat) : Option Port :=
  if n == 0 then some .a else if n == 1 then some .b else none

/-- A bank byte (R183). -/
def bankOfByte (n : Nat) : Option Bank :=
  if n == 0 then some .a else if n == 1 then some .b else none

/-- A hold target byte: its place in the list of R132. -/
def targetOfByte (n : Nat) : Option HoldTarget :=
  match n with
  | 0 => some .noHold
  | 1 => some .namedFiller
  | 2 => some .allFillers
  | 3 => some .dispatch
  | _ => none

/-- An Output Map source byte (R183). -/
def sourceOfByte (n : Nat) : Option PinSource :=
  match n with
  | 0 => some .none
  | 1 => some .fillerHold
  | 2 => some .dispatchHold
  | 3 => some .anyHold
  | 4 => some .engineStalled
  | 5 => some .forcedOn
  | _ => none

/-- A volume unit byte: its place in the list of R151 (log 15). -/
def unitOfByte (n : Nat) : Option VolUnit :=
  match n with
  | 0 => some .cl
  | 1 => some .dl
  | 2 => some .litre
  | _ => none

/-! ## Bytes -/

/-- A big-endian number (section 12). -/
def beNat (l : List Byte) : Nat := l.foldl (fun acc b => acc * 256 + b.toNat) 0

/-- The bytes at an offset, when all of them stand in the list. -/
def bytesAt (l : List Byte) (off width : Nat) : Option (List Byte) :=
  if off + width ≤ l.length then some ((l.drop off).take width) else none

/-- The number at an offset, when all its bytes stand in the list. -/
def numAt (l : List Byte) (off width : Nat) : Option Nat := (bytesAt l off width).map beNat

/-- The number at an offset; missing bytes read as if the list ended there. Used behind a length
check. -/
def numAt! (l : List Byte) (off width : Nat) : Nat := beNat ((l.drop off).take width)

/-- The key element of section 12.1. -/
def rawKeyOfNat (n : Nat) : RawKey := { kind := n / 2 ^ 28, serial := n % 2 ^ 28 }

end Sys2Proof.Machine

namespace Sys2Proof

open Sys2Proof.Machine

/-! ## Keys -/

/-- The key a command names: U-0, or a C or B key with a serial in range (R8, R18). -/
def RawKey.toKey (k : RawKey) : Option Key :=
  if k.kind == 0 then (if k.serial == 0 then some .unknown else none)
  else if k.kind == 1 then (if serialOk k.serial then some (.coll k.serial) else none)
  else if k.kind == 2 then (if serialOk k.serial then some (.blend k.serial) else none)
  else none

/-- The C or B key a command names; U-0 is refused (R57, R121). -/
def RawKey.toRecordKey (k : RawKey) : Option Key :=
  match k.toKey with
  | some .unknown => none
  | r => r

/-! ## The list of VESSEL_WRITE -/

/-- An entry of the list passes step 3 of R18. -/
def WriteEntry.valid (e : WriteEntry) : Bool := e.key.toKey.isSome && e.vol != 0 && e.cat ≤ 7

/-- The share an entry stands for. -/
def WriteEntry.share (e : WriteEntry) : Share := { key := e.key.toKey.getD .unknown, vol := e.vol }

/-- The list a VESSEL_WRITE gives. -/
def WriteArgs.list (w : WriteArgs) : List Share := w.entries.map WriteEntry.share

/-- No key stands twice. -/
def noRepeat : List RawKey → Bool
  | [] => true
  | k :: t => !t.contains k && noRepeat t

/-- Step 3 of R18, which also refuses an uncertain byte other than 0 or 1 (log 16). -/
def WriteArgs.valid (w : WriteArgs) (capacity : Nat) : Bool :=
  w.entries.length ≤ Config.shareMax && noRepeat (w.entries.map WriteEntry.key) &&
  w.entries.all WriteEntry.valid && (catOfByte w.cat).isSome &&
  !(w.cat == 0xFF && !w.entries.isEmpty) && total w.list ≤ capacity &&
  (flagOfByte w.uncertain).isSome

/-! ## The configuration of LOAD_VESSEL -/

/-- The kind a configuration sets. -/
def VesselCfg.vesselKind : VesselCfg → VesselKind
  | .unconfigured => .unconfigured
  | .store _ => .store
  | .bay _ _ => .bay
  | .filler .. => .filler
  | .unknown _ => .unconfigured

/-- The fields are within the ranges of R2, and the kind is one of the four. -/
def VesselCfg.inRange : VesselCfg → Bool
  | .unconfigured => true
  | .store c => 1 ≤ c && c ≤ Config.capacityMax
  | .bay i t => i ≤ 7 && t ≤ 100
  | .filler i n c p t a =>
    i ≤ 7 && n ≤ 99 && c < 2 ^ 48 && p ≤ 1 && t ≤ 3600 && a ≤ 65535
  | .unknown _ => false

/-! ## Ethernet frames -/

/-- The destination address of a frame. -/
def Frame.dst (f : Frame) : Nat := numAt! f 0 6

/-- The source address of a frame. -/
def Frame.src (f : Frame) : Nat := numAt! f 6 6

/-- The type field of a frame. -/
def Frame.etherType (f : Frame) : Nat := numAt! f 12 2

/-- The payload: from the byte after the type field to the last byte before the FCS (R149). -/
def Frame.payload (f : Frame) : List Byte := (f.drop 14).take (f.length - 18)

end Sys2Proof
end

