-- ==== Sys2Proof/Machine/Flags.lean ====
section
/-! DEFINITION. Every flag the part computes: categories and their merge, the uncertain flag, the
derived suspect flags, the mismatch flag, the content causes and holds, the engine state, and the
pins. -/

namespace Sys2Proof.Machine

open Sys2Proof

/-! ## Categories -/

/-- The merge of an existing and an incoming category (R10). -/
def Lineage.merge (l : Lineage) : Cat → Cat → Cat
  | some a, some b => some (vget (vget l.catTab a.val (Vector.replicate 8 0)) b.val 0)
  | some a, none => some a
  | none, b => b

/-- The fold of a list of categories, from NONE, in list order (R10). -/
def Lineage.foldCats (l : Lineage) (cs : List Cat) : Cat := cs.foldl l.merge none

/-- The mismatch test of a batch (R109). -/
def Lineage.mismatched (l : Lineage) (declared content : Cat) : Bool :=
  declared.isSome && l.merge declared content != declared

/-! ## The uncertain flag -/

/-- A cause of R12 acting on a vessel: a STORE or BAY's own flag, a FILLER's open batch's. -/
def Lineage.setUncertain (l : Lineage) (v : Nat) : Lineage :=
  let x := l.vessel v
  match x.kind with
  | .unconfigured => l
  | .store => l.setVessel v { x with uncertain := true }
  | .bay => l.setVessel v { x with uncertain := true }
  | .filler => l.modifyOpenOf x (fun b => { b with uncertain := true })

/-- The cause acts on each vessel of a list. -/
def Lineage.setUncertainAll (l : Lineage) (vs : List Nat) : Lineage :=
  vs.foldl Lineage.setUncertain l

def State.setUncertain (s : State) (v : Nat) : State := s.setLin (s.lin.setUncertain v)

/-- The uncertain flag of a vessel as it is read (R12, R20). -/
def Lineage.uncertainOf (l : Lineage) (v : Vessel) : Bool :=
  match v.kind with
  | .unconfigured => false
  | .store => v.uncertain
  | .bay => v.uncertain
  | .filler =>
    match l.openBatchOf v with
    | none => false
    | some b => b.uncertain

/-! ## Suspect flags -/

/-- A key is suspect: its collection is marked, or its blend's derived flag is set (R13). -/
def Lineage.keySuspect (l : Lineage) : Key → Bool
  | .unknown => false
  | .coll n =>
    match l.findColl n with
    | none => false
    | some (_, r) => r.mark
  | .blend n =>
    match l.findBlend n with
    | none => false
    | some (_, r) => r.derived

/-- Any key of a list is suspect. -/
def Lineage.listSuspect (l : Lineage) (ks : List Key) : Bool := ks.any l.keySuspect

/-- Any share of any slot of a ring carries a suspect key (R13, R67). -/
def Lineage.ringSuspect (l : Lineage) (r : Ring) : Bool :=
  r.slots.toList.any (fun c => l.listSuspect (c.shares.map CompShare.key))

/-- The derived suspect flag of a batch, from its list (R98, R108). -/
def Lineage.batchSuspect (l : Lineage) (b : Batch) : Bool := l.listSuspect (keysOf b.list)

/-- Re-deriving the flag of one vessel, or of a FILLER's open batch (R13). -/
def Lineage.rederive (l : Lineage) (v : Nat) : Lineage :=
  let x := l.vessel v
  match x.kind with
  | .unconfigured => l
  | .store => l.setVessel v { x with suspect := l.listSuspect (keysOf x.list) }
  | .bay => l.setVessel v { x with suspect := l.ringSuspect (l.ring x.bayIndex) }
  | .filler => l.modifyOpenOf x (fun b => { b with suspect := l.batchSuspect b })

/-- The derived suspect flag of a vessel as it is read (R13). -/
def Lineage.suspectOf (l : Lineage) (v : Vessel) : Bool :=
  match v.kind with
  | .unconfigured => false
  | .store => v.suspect
  | .bay => v.suspect
  | .filler =>
    match l.openBatchOf v with
    | none => false
    | some b => b.suspect

/-! ## Content causes and holds -/

/-- The content causes in force for an open batch (R136). -/
def HoldUnit.causesFor (h : HoldUnit) : Option Batch → Causes
  | none => {}
  | some b =>
    { suspect := h.suspectOn && b.suspect
      uncertain := h.uncertainOn && b.uncertain
      mismatch := h.mismatchOn && b.mismatch }

/-- Some content cause is in force. -/
def Causes.any (c : Causes) : Bool := c.suspect || c.uncertain || c.mismatch

/-- The open batch a hold reads: a filler's; the dispatch gate has none (R136). -/
def State.holdBatch (s : State) (i : Nat) : Option Batch :=
  if i < 8 then (s.lin.filler i).openBatch else none

/-- The state of a hold as the evaluation computes it (R137). -/
def State.holdView (s : State) (i : Nat) : HoldView :=
  let latch := s.hold.latch i
  let causes := s.hold.causesFor (s.holdBatch i)
  { asserted := latch != 0 || causes.any, latch := latch, causes := causes }

/-- A hold's state at the end of the last evaluation (R137). -/
def HoldUnit.view (h : HoldUnit) (i : Nat) : HoldView := vget h.shown i {}

/-- The hold element of a HOLD record (R185). -/
def holdByte (i : Nat) : Nat := if i < 8 then i else 0xFD

/-- The evaluation of one hold: its record where its state changed or it was released, and its new
state shown (R137 to R139). -/
def State.evaluateHold (tag : Nat) (action : HoldAction) (released : List Nat) (s : State)
    (i : Nat) : State :=
  let before := s.hold.view i
  let after := s.holdView i
  let act := if released.contains i then HoldAction.release else action
  let s1 :=
    if released.contains i || before != after then
      s.write tag (.hold
        { hold := holdByte i, action := act, result := .done, before := before, after := after,
          batch := (s.holdBatch i).map Batch.serial })
    else s
  s1.setHold { s1.hold with shown := vset s1.hold.shown i after }

/-- The hold evaluation: fillers 0 to 7 in ascending order, then the dispatch hold (R137). -/
def State.evaluate (s : State) (tag : Nat) (action : HoldAction) (released : List Nat) : State :=
  (List.range 9).foldl (State.evaluateHold tag action released) s

/-! ## The engine state -/

/-- The four states of the Trace Engine (R159). -/
inductive EngineState
  | idle | running | stalled | clearing
  deriving DecidableEq, Repr

/-- A CLEAR_ENGINE waits to be applied (R159, R162). -/
def State.clearPending (s : State) : Bool := s.waiting.any (fun w => w.cmd == .clear)

/-- A direct command between operations must wait: the engine is RUNNING or CLEARING (R175). -/
def State.busy (s : State) : Bool := s.inFlight.isSome || !s.waiting.isEmpty

/-- The engine's state (R159). While deferred commands are due it reads RUNNING (log 7). -/
def State.engine (s : State) : EngineState :=
  if s.clearPending then .clearing
  else if s.busy then .running
  else if s.evq.isEmpty then .idle
  else .stalled

/-! ## The pins -/

/-- What a hold output does (R141). -/
inductive PinLevel
  | highZ | high | low
  deriving DecidableEq, Repr

/-- The source of an Output Map entry is active (R141). -/
def State.sourceActive (s : State) (o : OutEntry) : Bool :=
  match o.source with
  | .none => false
  | .fillerHold => (s.hold.view o.filler).asserted
  | .dispatchHold => (s.hold.view 8).asserted
  | .anyHold => s.hold.shown.toList.any (fun h => h.asserted)
  | .engineStalled => s.engine == .stalled
  | .forcedOn => true

/-- The level of a hold output (R141): driven while its source is active, else high impedance. -/
def State.pin (s : State) (i : Nat) : PinLevel :=
  let o := vget s.hold.outMap i {}
  if s.sourceActive o then (if o.activeLow then .low else .high) else .highZ

end Sys2Proof.Machine
end

