-- ==== Sys2Proof/Machine/Ports.lean ====
section
/-! DEFINITION. The injected-frame queues: offers of code notices, reply reservations, and the
placing of replies (R104, R147, R174). -/

namespace Sys2Proof.Machine

open Sys2Proof

/-- Frames and reservations leave a place free (R174). -/
def PortState.room (p : PortState) : Bool :=
  p.inj.length + p.reservations < Config.injectedMax

/-- Offering a code notice: accepted when the link is up and a place is free (R104, R147). -/
def State.offerNotice (s : State) (p : Port) (n : Notice) : State × Bool :=
  let x := s.port p
  if x.linkUp && x.room then (s.setPort p { x with inj := x.inj ++ [.notice n] }, true)
  else (s, false)

/-- Reserving a place for a reply (R174). -/
def State.reserve (s : State) (p : Port) : State :=
  let x := s.port p
  s.setPort p { x with reservations := x.reservations + 1 }

/-- Answering a command in its reserved place: the reply becomes the youngest frame. A reply whose
port's link went down since its command was taken, or is down, is discarded and counted (R174). -/
def State.answer (s : State) (p : Port) (lost : Bool) (r : Reply) : State :=
  let x := s.port p
  let y := { x with reservations := x.reservations - 1 }
  if lost || !x.linkUp then s.setPort p { y with linkLoss := tick32 y.linkLoss }
  else s.setPort p { y with inj := y.inj ++ [.reply r] }

end Sys2Proof.Machine
end

