-- ==== Sys2Proof/Machine/Filler.lean ====
section
/-! DEFINITION. Batches: codes, opening, closing, and what a transfer does to the filler it
reaches (R97 to R110, R113). -/

namespace Sys2Proof.Machine

open Sys2Proof

/-! ## Batch codes (R105) -/

/-- The first 16 digits of a code, read as an integer N (R105). -/
def codeBody (plant number day seq : Nat) : Nat :=
  plant * 10 ^ 12 + number * 10 ^ 10 + day * 10 ^ 5 + seq

/-- The check digits of N (R105). -/
def codeCheck (n : Nat) : Nat := 98 - n * 100 % 97

/-- The 18-digit code (R105). -/
def composeCode (plant number day seq : Nat) : Nat :=
  codeBody plant number day seq * 100 + codeCheck (codeBody plant number day seq)

/-! ## Timers -/

/-- Starting or restarting the idle timer of a FILLER vessel (R113). -/
def State.timerStart (s : State) (v : Vessel) : Option Nat :=
  if v.idleTimeout == 0 then none else some (s.mgmt.elapsed + v.idleTimeout * 100)

/-! ## Closing (R110) -/

/-- Closing the open batch of a filler, if there is one, and leaving its record in `next`. -/
def State.closeBatch (s : State) (f : Nat) (reason : CloseReason) (tag : Nat)
    (expiry : Option TimeStamp) (next : FillerState) : State :=
  let x := s.lin.filler f
  match x.openBatch with
  | none => s
  | some b =>
    let closed := { b with closeTime := some s.now, reason := reason }
    let s1 := s.setLin (s.lin.setFiller f
      { x with ring := modifyLast (fun _ => closed) x.ring, timer := none, state := next })
    s1.write tag (.batchClosed closed expiry)

/-! ## Opening (R102) -/

/-- Step 2: with 8 records in the ring the oldest is evicted and its keys are released (R99). -/
def State.evict (s : State) (f : Nat) : State × Option Nat :=
  let x := s.lin.filler f
  match x.ring with
  | [] => (s, none)
  | oldest :: rest =>
    if x.ring.length < Config.ringMax then (s, none)
    else
      (s.setLin ((s.lin.setFiller f { x with ring := rest }).releaseAll (keysOf oldest.list)),
       some oldest.serial)

/-- Steps 3 and 4: the new batch record, from the state as it stands after steps 1 and 2. -/
def State.newBatch (s : State) (f : Nat) (v : Vessel) (product : Nat) (declared : Cat)
    (cause : OpenCause) : Batch :=
  let x := s.lin.filler f
  let exhausted := x.seq == Config.seqExhausted
  { serial := s.lin.issueBatch
    code :=
      if exhausted then Config.indefiniteCode
      else composeCode s.mgmt.plant v.fillerNumber s.mgmt.codeDay x.seq
    filler := f
    number := v.fillerNumber
    product := product
    declared := declared
    openTime := s.now
    cause := cause
    indefinite := exhausted
    unsent := false
    firstSerial := if x.seen then some ((x.lastCarton + 1) % 2 ^ 32) else none
    list := []
    cat := none
    uncertain := false
    mismatch := false
    suspect := false
    produced := 0
    dispatched := 0
    closeTime := none
    reason := .stillOpen }

/-- The code notice of a batch (R104, R184). -/
def State.noticeFor (s : State) (v : Vessel) (b : Batch) : Notice :=
  { dst := v.coderAddr, plant := s.mgmt.plant, number := b.number, serial := b.serial,
    code := b.code, product := b.product, declared := b.declared, firstSerial := b.firstSerial }

/-- Step 6: the notice is offered unless the batch is indefinite; the second part says whether it
was refused (R104). -/
def State.sendNotice (s : State) (v : Vessel) (b : Batch) : State × Bool :=
  if b.indefinite then (s, false)
  else
    let (s1, accepted) := s.offerNotice v.coderPort (s.noticeFor v b)
    (s1, !accepted)

/-- Steps 3 to 5: the counters advance and the record joins the ring as its newest. -/
def State.appendBatch (s : State) (f : Nat) (v : Vessel) (b : Batch) : State :=
  let x := s.lin.filler f
  let l := { s.lin with batchNext := nextSerial b.serial }
  s.setLin (l.setFiller f
    { x with
      ring := x.ring ++ [b]
      seq := if b.indefinite then x.seq else x.seq + 1
      state := .batchOpen
      timer := s.timerStart v })

/-- Step 8: CODE_EXHAUSTED, CODE_UNSENT and NO_BATCH, in that order, where they apply. -/
def State.openingConditions (s : State) (f : Nat) (v : Vessel) (b : Batch) (tag : Nat) : State :=
  let s1 := if b.indefinite then s.raise tag (some f) (.codeExhausted f b.serial) else s
  let s2 := if b.unsent then s1.raise tag (some f) (.codeUnsent f b.serial v.coderPort) else s1
  if b.cause == .auto then s2.raise tag (some f) (.noBatch f b.serial) else s2

/-- Opening a batch on the filler `f` of the FILLER vessel `v` (R102). -/
def State.openBatch (s : State) (f : Nat) (v : Vessel) (product : Nat) (declared : Cat)
    (cause : OpenCause) (tag : Nat) : State :=
  let s1 := s.closeBatch f .superseded tag none .idle
  let (s2, evicted) := s1.evict f
  let b := s2.newBatch f v product declared cause
  let (s3, unsent) := s2.sendNotice v b
  let b' := { b with unsent := unsent }
  let s4 := s3.appendBatch f v b'
  let s5 := s4.write tag (.batchOpened b' evicted)
  s5.openingConditions f v b' tag

/-! ## Flow (R107) -/

/-- What follows a transfer into a filler: last-flow time, idle timer, suspect flag (R107). The
mismatch flag is set where the content category changes (R109). -/
def State.flowInto (s : State) (v : Vessel) : State :=
  let x := s.lin.filler v.fillerIndex
  s.setLin (s.lin.setFiller v.fillerIndex
    { x with lastFlow := s.now, timer := s.timerStart v })

end Sys2Proof.Machine
end

