-- ==== Sys2Proof/Machine/Apportion.lean ====
section
/-! DEFINITION. The arithmetic of chapter 2 on plain lists: largest-remainder apportionment (R29),
portion lists (R28), the merge (R33), the choice of truncated shares (R41), and the scaling of a
meter's total (R23 to R25). -/

namespace Sys2Proof.Machine

open Sys2Proof

/-! ## Largest-remainder apportionment (R29) -/

/-- The floors and remainders of step 1; a remainder is `none` once its position has gained. -/
def floors (v wt : Nat) (ws : List Nat) : List (Nat × Option Nat) :=
  ws.map (fun w => (v * w / wt, some (v * w % wt)))

/-- The largest remainder of a position that has not gained. -/
def maxRem (l : List (Nat × Option Nat)) : Nat :=
  l.foldr (fun x m => match x.2 with | some r => max r m | none => m) 0

/-- The earliest position with remainder `m` gains 1. -/
def gainFirst (m : Nat) : List (Nat × Option Nat) → List (Nat × Option Nat)
  | [] => []
  | (p, none) :: t => (p, none) :: gainFirst m t
  | (p, some r) :: t => if r == m then (p + 1, none) :: t else (p, some r) :: gainFirst m t

/-- Step 3: `k` times the position with the largest remainder gains 1, the earlier among equals. -/
def gainLargest : Nat → List (Nat × Option Nat) → List (Nat × Option Nat)
  | 0, l => l
  | k + 1, l => gainLargest k (gainFirst (maxRem l) l)

/-- The apportionment of `v` over the weights `ws` (R29). -/
def apportion (v : Nat) (ws : List Nat) : List Nat :=
  let base := floors v ws.sum ws
  let shortfall := v - (base.map Prod.fst).sum
  (gainLargest shortfall base).map Prod.fst

/-! ## Portion lists -/

/-- Shares of the given keys and volumes, without those of volume 0. -/
def portionsOf (ks : List Key) (vs : List Nat) : List Share :=
  ((ks.zip vs).map (fun p => Share.mk p.1 p.2)).filter (fun x => x.vol != 0)

/-- The volume a list holds under a key. -/
def volumeOf (k : Key) (l : List Share) : Nat :=
  total (l.filter (fun x => x.key == k))

/-- A portion list in source order with the U-0 portion, of `extra` and any U-0 portion already
there, last (R28). -/
def unknownLast (l : List Share) (extra : Nat) : List Share :=
  let known := l.filter (fun x => x.key != .unknown)
  let u := volumeOf .unknown l + extra
  if u == 0 then known else known ++ [⟨.unknown, u⟩]

/-! ## The merge (R33) -/

/-- Adding one portion: to the share of its key, or as a new share at the end (R33). -/
def addPortion (l : List Share) (p : Share) : List Share :=
  if hasKey l p.key then
    l.map (fun x => if x.key == p.key then { x with vol := x.vol + p.vol } else x)
  else l ++ [p]

/-- The merge of a portion list into a list (R33). -/
def mergeInto (l : List Share) (ps : List Share) : List Share := ps.foldl addPortion l

/-- The portions scaled to the room left, those that scale to 0 dropped (R34). -/
def scaleTo (room : Nat) (ps : List Share) : List Share :=
  if room == 0 then [] else portionsOf (keysOf ps) (apportion room (ps.map Share.vol))

/-! ## Truncation (R41) -/

/-- The smallest volume among the shares that are not U-0. -/
def smallestKnown : List Share → Option Nat
  | [] => none
  | x :: t =>
    if x.key == .unknown then smallestKnown t
    else
      match smallestKnown t with
      | none => some x.vol
      | some m => some (min x.vol m)

/-- Remove the first share that is not U-0 and has volume `m`. -/
def removeFirst (m : Nat) : List Share → Option (Share × List Share)
  | [] => none
  | x :: t =>
    if x.key != .unknown && x.vol == m then some (x, t)
    else (removeFirst m t).map (fun r => (r.1, x :: r.2))

/-- Remove the smallest share not U-0, the later among equals (R41). -/
def removeSmallest (l : List Share) : Option (Share × List Share) :=
  match smallestKnown l with
  | none => none
  | some m => (removeFirst m l.reverse).map (fun r => (r.1, r.2.reverse))

/-- Step 2 of R41: while more than 12 shares stand, the smallest is folded into U-0. The second
part gathers the shares removed, in order. `fuel` is the list's length. -/
def foldSmallest : Nat → List Share → List Share → List Share × List Share
  | 0, l, removed => (l, removed)
  | fuel + 1, l, removed =>
    if l.length ≤ Config.shareMax then (l, removed)
    else
      match removeSmallest l with
      | none => (l, removed)
      | some (x, rest) => foldSmallest fuel (addPortion rest ⟨.unknown, x.vol⟩) (removed ++ [x])

/-- Step 1 of R41: a list without U-0 gives its two smallest shares to a new U-0 at the end. -/
def makeUnknown (l : List Share) : List Share × List Share :=
  if hasKey l .unknown then (l, [])
  else
    match removeSmallest l with
    | none => (l, [])
    | some (x, r1) =>
      match removeSmallest r1 with
      | none => (r1 ++ [⟨.unknown, x.vol⟩], [x])
      | some (y, r2) => (r2 ++ [⟨.unknown, x.vol + y.vol⟩], [x, y])

/-- Truncation of a list of more than 12 shares: the list kept and the shares removed (R41). -/
def truncateList (l : List Share) : List Share × List Share :=
  let (l1, removed) := makeUnknown l
  foldSmallest l1.length l1 removed

/-! ## From meter total to volume (R23 to R25) -/

/-- What a reading does to a configured meter. -/
inductive Reading
  | first (m : Meter)
  | backward (m : Meter) (oldRef newTotal : Nat)
  | forward (m : Meter) (vol : Nat)
  deriving DecidableEq, Repr

/-- A reading of total `t` on a configured meter (R23, R24, R25). -/
def readMeterTotal (m : Meter) (t : Nat) : Reading :=
  let r := t % 2 ^ m.width
  if !m.refValid then .first { m with ref := r, refValid := true }
  else
    let delta := (r + 2 ^ m.width - m.ref) % 2 ^ m.width
    if 2 ^ (m.width - 1) ≤ delta then .backward { m with ref := r } m.ref r
    else
      let x := delta * m.num + m.residue
      .forward { m with ref := r, residue := x % m.den } (x / m.den)

end Sys2Proof.Machine
end

