-- ==== Sys2Proof/Machine/Transfer.lean ====
section
/-! DEFINITION. The transfer of R27, stage by stage: the destination prepared, the draw from a STORE
or a BAY, the merge within the ceiling, collapse and truncation, category and flags, and the
settling of reference counts. -/

namespace Sys2Proof.Machine

open Sys2Proof

/-! ## Stage 1: the destination -/

/-- An UNSEEDED STORE becomes HOLDING (R14); a FILLER in IDLE has a batch opened (R103), which takes
the uncertain flag that the operation set for the filler before (`doubt`). -/
def State.prepareDst (s : State) (dst tag : Nat) (doubt : Bool) : State :=
  let x := s.lin.vessel dst
  match x.kind with
  | .store =>
    if x.state == .unseeded then
      s.setLin (s.lin.setVessel dst
        { x with state := .holding, list := [], cat := some 0, uncertain := true })
    else s
  | .filler =>
    if (s.lin.filler x.fillerIndex).state == .idle then
      let s1 := s.openBatch x.fillerIndex x x.autoProduct none .auto tag
      if doubt then s1.setUncertain dst else s1
    else s
  | .bay => s
  | .unconfigured => s

/-- The list a transfer merges into: a STORE's own, or that of the filler's open batch (R33). -/
def Lineage.listOf (l : Lineage) (v : Vessel) : List Share :=
  match v.kind with
  | .filler =>
    match l.openBatchOf v with
    | none => []
    | some b => b.list
  | _ => v.list

/-- The list of a destination replaced. -/
def Lineage.setList (l : Lineage) (dst : Nat) (list : List Share) : Lineage :=
  let x := l.vessel dst
  match x.kind with
  | .filler => l.modifyOpenOf x (fun b => { b with list := list })
  | _ => l.setVessel dst { x with list := list }

/-- The category of a destination replaced. A batch's mismatch flag is evaluated where its content
category changes (R109). -/
def Lineage.setCat (l : Lineage) (dst : Nat) (c : Cat) : Lineage :=
  let x := l.vessel dst
  match x.kind with
  | .filler =>
    l.modifyOpenOf x (fun b =>
      if c == b.cat then b else { b with cat := c, mismatch := l.mismatched b.declared c })
  | _ => l.setVessel dst { x with cat := c }

/-! ## Stage 2: the draw -/

/-- What a draw yields: the state with the source depleted and the draw's conditions raised, the
portion list (R28), the incoming category (R36) and the keys of the source shares that left. -/
structure Draw where
  st : State
  portions : List Share
  incoming : Cat
  gone : List Key
  deriving DecidableEq, Repr

/-- The shares of a list after each has given its portion, those at 0 included (R30). -/
def lowered (l : List Share) (ps : List Nat) : List Share :=
  (l.zip ps).map (fun p => { p.1 with vol := p.1.vol - p.2 })

/-- A draw from a HOLDING STORE that holds enough (R30). -/
def State.drawPlain (s : State) (src : Nat) (v : Nat) : Draw :=
  let x := s.lin.vessel src
  let ps := apportion v (x.list.map Share.vol)
  let after := lowered x.list ps
  { st := s.setLin (s.lin.setVessel src { x with list := after.filter (fun a => a.vol != 0) })
    portions := unknownLast (portionsOf (keysOf x.list) ps) 0
    incoming := x.cat
    gone := keysOf (after.filter (fun a => a.vol == 0)) }

/-- A draw of more than a HOLDING STORE holds (R31). -/
def State.drawOver (s : State) (src dst v tag : Nat) : Draw :=
  let x := s.lin.vessel src
  let excess := v - total x.list
  let s1 := (s.setLin (s.lin.setVessel src { x with list := [] })).setUncertain dst
  { st := s1.raise tag (s.lin.namedFiller dst) (.overdraw src dst v excess)
    portions := unknownLast x.list excess
    incoming := x.cat
    gone := keysOf x.list }

/-- A draw from an UNSEEDED STORE (R32). -/
def State.drawUnseeded (s : State) (src dst v tag : Nat) : Draw :=
  let s1 := s.setUncertain dst
  let c := CondVals.overdraw src dst v v
  { st :=
      if (vget s.hold.policy c.row {}).report then s1.raise tag (s.lin.namedFiller dst) c
      else s1.countOnly c.row
    portions := [⟨.unknown, v⟩]
    incoming := some 0
    gone := [] }

/-- A draw from a STORE. -/
def State.drawStore (s : State) (src dst v tag : Nat) : Draw :=
  let x := s.lin.vessel src
  if x.state == .unseeded then s.drawUnseeded src dst v tag
  else if v ≤ total x.list then s.drawPlain src v
  else s.drawOver src dst v tag

/-- The normal part of a bay draw (R72). -/
def Slot.normalPart (c : Slot) (v : Nat) : Nat := min v c.remainingTotal

/-- The limit Lm of a slot at a tolerance (R73). -/
def Slot.limit (c : Slot) (tolerance : Nat) : Nat := c.manifestTotal * (1000 + tolerance) / 1000

/-- The tolerance room Tr (R73). -/
def Slot.room (c : Slot) (tolerance : Nat) : Nat :=
  c.limit tolerance - max c.drawn c.manifestTotal

/-- The tolerance part of a bay draw (R73). -/
def Slot.tolerancePart (c : Slot) (tolerance v : Nat) : Nat :=
  min (v - c.normalPart v) (c.room tolerance)

/-- The excess part of a bay draw (R74); the whole volume from an EMPTY slot. -/
def Slot.excessPart (c : Slot) (tolerance v : Nat) : Nat :=
  if c.tag == .empty then v else v - c.normalPart v - c.tolerancePart tolerance v

/-- The portions of the normal part, one for each share of the slot (R72). -/
def Slot.normalPortions (c : Slot) (v : Nat) : List Nat :=
  if c.normalPart v == 0 then c.shares.map (fun _ => 0)
  else apportion (c.normalPart v) (c.shares.map CompShare.remaining)

/-- The portions of the tolerance part, one for each share of the slot (R73). -/
def Slot.tolerancePortions (c : Slot) (tolerance v : Nat) : List Nat :=
  if c.tolerancePart tolerance v == 0 then c.shares.map (fun _ => 0)
  else apportion (c.tolerancePart tolerance v) (c.shares.map CompShare.manifest)

/-- The slot after a draw: remaining volumes lowered by the normal part, D grown by the whole draw
and stopping at 2^48 - 1 (R72, R75). An EMPTY slot is unchanged. -/
def Slot.afterDraw (c : Slot) (v : Nat) : Slot :=
  if c.tag == .empty then c
  else
    { c with
      shares := (c.shares.zip (c.normalPortions v)).map
        (fun p => { p.1 with remaining := p.1.remaining - p.2 })
      drawn := if c.tag == .discharging then min (c.drawn + v) Config.volume48Max else c.drawn }

/-- The portion list of a bay draw, normal and tolerance parts combined, U-0 last (R28). -/
def Slot.portions (c : Slot) (tolerance v : Nat) : List Share :=
  let known :=
    if c.tag == .empty then []
    else
      portionsOf (c.shares.map CompShare.key)
        (((c.normalPortions v).zip (c.tolerancePortions tolerance v)).map (fun p => p.1 + p.2))
  unknownLast known (c.excessPart tolerance v)

/-- The category of the record a key names (R56). -/
def Lineage.keyCat (l : Lineage) : Key → Cat
  | .unknown => some 0
  | .coll n => (l.findColl n).map (fun p => p.2.cat)
  | .blend n => (l.findBlend n).map (fun p => p.2.cat)

/-- The incoming category of a bay draw: the fold over the slot's collections, followed by 0 when
the portion list holds U-0 (R36, R75). The list is the draw's own, ahead of the scaling of R34: the
model's choice (log 36). -/
def Lineage.bayCat (l : Lineage) (c : Slot) (ps : List Share) : Cat :=
  let fold := l.foldCats (c.shares.map (fun x => l.keyCat x.key))
  if hasKey ps .unknown then l.merge fold (some 0) else fold

/-- The slot a ring's discharge pointer names (R62). -/
def Ring.dischSlot (r : Ring) : Slot := vget r.slots r.disch {}

/-- A draw from a BAY (R72 to R75); its category is formed on the unscaled portions (log 36). -/
def State.drawBay (s : State) (src dst v tag : Nat) : Draw :=
  let x := s.lin.vessel src
  let r := s.lin.ring x.bayIndex
  let c := r.dischSlot
  let ps := c.portions x.tolerance v
  let excess := c.excessPart x.tolerance v
  let incoming := s.lin.bayCat c ps
  let s1 := s.setLin
    (s.lin.setRing x.bayIndex { r with slots := vset r.slots r.disch (c.afterDraw v) })
  { st :=
      if excess == 0 then s1
      else
        (s1.setUncertain dst).raise tag (s.lin.namedFiller dst)
          (.intakeExcess src r.disch c.tanker c.comp dst v excess)
    portions := ps
    incoming := incoming
    gone := [] }

/-- The draw of a transfer: from a BAY or a STORE (R27). -/
def State.draw (s : State) (src dst v tag : Nat) : Draw :=
  if (s.lin.vessel src).kind == .bay then s.drawBay src dst v tag else s.drawStore src dst v tag

/-! ## Stages 3 and 4: merge, collapse, truncation -/

/-- What the merge leaves: the state, the final list, the blends that steps (a) and (b) formed, the
keys that became members, and whether the list was truncated. -/
structure Merged where
  st : State
  final : List Share
  blendA : Option Key
  blendB : Option Key
  members : List Key
  truncated : Bool
  deriving DecidableEq, Repr

/-- Forming a blend of a member list in a vessel (R40, R45, R50). Its table entry starts at count
0 and gains its reference in the first pass of R42; its BLEND record shows the count 1. -/
def State.formBlend (s : State) (dst : Nat) (cat : Cat) (members : List Share) (tag : Nat) :
    State × Key :=
  let n := s.lin.issueBlend
  let r : BlendRec :=
    { serial := n, cat := cat.getD 0, direct := false,
      derived := s.lin.listSuspect (keysOf members), refs := 0,
      info := some { created := s.now, vessel := dst, members := members } }
  let l := { s.lin.addBlend r with blendNext := nextSerial n }
  ((s.setLin l).write tag (.blend { r with refs := 1 }), .blend n)

/-- Truncation of a list of more than 12 shares in a vessel: the flag, the record, the condition
(R41). -/
def State.truncate (s : State) (dst : Nat) (list : List Share) (tag : Nat) : State × List Share :=
  let (kept, removed) := truncateList list
  let s1 := (s.setUncertain dst).write tag (.truncation dst s.now removed)
  (s1.raise tag (s.lin.namedFiller dst) (.truncated dst removed.length), kept)

/-- Step (b) on a base list, or truncation of `list` when the Blend Table is full (R39). -/
def Merged.stepB (m : Merged) (dst : Nat) (base list ps : List Share) (incoming : Cat)
    (tag : Nat) : Merged :=
  if m.st.lin.freeBlends == 0 then
    let (s1, kept) := m.st.truncate dst list tag
    { m with st := s1, final := kept, truncated := true }
  else
    let known := ps.filter (fun x => x.key != .unknown)
    let unknown := ps.filter (fun x => x.key == .unknown)
    let (s1, k) := m.st.formBlend dst incoming known tag
    { m with
      st := s1
      final := mergeInto (base ++ [⟨k, total known⟩]) unknown
      blendB := some k
      members := m.members ++ keysOf known }

/-- The merge of the portions into the destination's list with collapse by R38 and R39, or
truncation by R41. -/
def State.mergeList (s : State) (dst : Nat) (pre ps : List Share) (incoming : Cat) (tag : Nat) :
    Merged :=
  let merged := mergeInto pre ps
  let plain : Merged :=
    { st := s, final := merged, blendA := none, blendB := none, members := [], truncated := false }
  if merged.length ≤ Config.shareMax then plain
  else if pre.length < 2 then plain.stepB dst pre merged ps incoming tag
  else if s.lin.freeBlends == 0 then
    let (s1, kept) := s.truncate dst merged tag
    { plain with st := s1, final := kept, truncated := true }
  else
    let (s1, k) := s.formBlend dst (s.lin.catOf (s.lin.vessel dst)) pre tag
    let base : List Share := [⟨k, total pre⟩]
    let redone := mergeInto base ps
    let a : Merged :=
      { st := s1, final := redone, blendA := some k, blendB := none, members := keysOf pre,
        truncated := false }
    if redone.length ≤ Config.shareMax then a else a.stepB dst base redone ps incoming tag

/-! ## Stage 6: reference counts (R42) -/

/-- The keys that gain a reference: the shares appended that stand, the members of the blends
formed, and the shares of the blends formed. -/
def Merged.gained (m : Merged) (pre : List Share) : List Key :=
  let formed := m.blendA.toList ++ m.blendB.toList
  let old := if m.blendA.isSome then [] else keysOf pre
  (keysOf m.final).filter (fun k => !old.contains k && !formed.contains k) ++ m.members ++ formed

/-- The keys that lose a reference at the destination: the shares replaced by members in step (a),
the shares of the pre-merge list that truncation removed, and step (a)'s blend where truncation
removed it. -/
def Merged.lost (m : Merged) (pre : List Share) : List Key :=
  let final := keysOf m.final
  match m.blendA with
  | none => (keysOf pre).filter (fun k => !final.contains k)
  | some k => keysOf pre ++ (if final.contains k then [] else [k])

/-! ## The whole transfer -/

/-- What a transfer reports to the MANUAL record (R44). -/
structure TransferOut where
  st : State
  merged : List Share
  discarded : Nat
  stepA : Bool
  stepB : Bool
  truncated : Bool
  deriving DecidableEq, Repr

/-- The ceiling (R34): the portions to merge and the volume discarded. -/
def ceilingCut (content : Nat) (ps : List Share) : List Share × Nat :=
  if content + total ps ≤ Config.contentCeiling then (ps, 0)
  else
    (scaleTo (Config.contentCeiling - content) ps,
     total ps - (Config.contentCeiling - content))

/-- OVERFILL at the ceiling with the destination uncertain, where volume was discarded (R34). -/
def State.ceilingRaise (s : State) (dst discarded tag : Nat) : State :=
  if discarded == 0 then s
  else
    (s.setUncertain dst).raise tag (s.lin.namedFiller dst) (.overfill dst discarded)

/-- The merge of the categories, with CATEGORY_CHANGE on a change from a category (R36). -/
def State.mergeCat (s : State) (dst : Nat) (incoming : Cat) (tag : Nat) : State :=
  let old := s.lin.catOf (s.lin.vessel dst)
  let new := s.lin.merge old incoming
  let s1 := s.setLin (s.lin.setCat dst new)
  match old, new with
  | some a, some b =>
    if a == b then s1 else s1.raise tag (s.lin.namedFiller dst) (.categoryChange dst a b)
  | _, _ => s1

/-- OVERFILL when the content of a STORE crosses its capacity and nothing was discarded (R35). -/
def State.capacityRaise (s : State) (dst before discarded tag : Nat) : State :=
  let x := s.lin.vessel dst
  if x.kind == .store && discarded == 0 && before ≤ x.capacity && x.capacity < s.lin.content x then
    s.raise tag none (.overfill dst 0)
  else s

/-- A transfer of `v` above 0 from `src` to `dst` (R27). The caller has seen to it that the two
differ and that neither is CLEANING. -/
def State.transfer (s : State) (src dst v tag : Nat) (doubt : Bool) : TransferOut :=
  let s1 := s.prepareDst dst tag doubt
  let d := s1.draw src dst v tag
  let x := d.st.lin.vessel dst
  let pre := d.st.lin.listOf x
  let before := total pre
  let (ps, discarded) := ceilingCut before d.portions
  let s2 := d.st.ceilingRaise dst discarded tag
  let m := s2.mergeList dst pre ps d.incoming tag
  let s3 := m.st.setLin (m.st.lin.setList dst m.final)
  let s4 := if ps.isEmpty then s3 else s3.mergeCat dst d.incoming tag
  let s5 :=
    if !ps.isEmpty && s4.lin.uncertainOf (s4.lin.vessel src) then s4.setUncertain dst else s4
  let s6 := s5.capacityRaise dst before discarded tag
  let s7 := if x.kind == .filler then s6.flowInto x else s6
  let l1 := (s7.lin.addRefs (m.gained pre)).releaseAll (d.gone ++ m.lost pre)
  let l2 := (l1.rederive src).rederive dst
  { st := s7.setLin l2, merged := ps, discarded := discarded, stepA := m.blendA.isSome,
    stepB := m.blendB.isSome, truncated := m.truncated }

end Sys2Proof.Machine
end

