-- ==== Sys2Proof/Machine/Route.lean ====
section
/-! DEFINITION. Valves, routes and segments: conditions and resolution (R81 to R85), segments (R86 to
R88), where metered volume goes (R89 to R93), the switch of banks (R94), and the METER, VALVE and
SWITCH_BANK operations. -/

namespace Sys2Proof.Machine

open Sys2Proof

/-! ## Resolution -/

/-- A condition holds on the Valve Image (R81). -/
def Lineage.condHolds (l : Lineage) (c : RouteCond) : Bool :=
  let x := vget l.clusters c.cluster {}
  x.seen && (x.value &&& c.mask) == c.mtch

/-- The conditions of an entry that are in use (R81). -/
def RouteEntry.inUse (e : RouteEntry) : List RouteCond := [e.c1, e.c2].take e.count

/-- An entry holds (R81). -/
def Lineage.entryHolds (l : Lineage) (e : RouteEntry) : Bool :=
  e.valid && e.inUse.all l.condHolds

/-- A Route Bank. -/
def Lineage.bank (l : Lineage) : Bank → Vector RouteEntry 128
  | .a => l.bankA
  | .b => l.bankB

/-- The bank that is not active. -/
def Bank.other : Bank → Bank
  | .a => .b
  | .b => .a

/-- An entry of the active bank. -/
def Lineage.activeEntry (l : Lineage) (i : Nat) : RouteEntry := vget (l.bank l.active) i {}

/-- A meter's route: the lowest-indexed valid entry of the active bank for it that holds (R83). -/
def Lineage.resolve (l : Lineage) (m : Nat) : Option Route :=
  ((List.range 128).find?
      (fun i => (l.activeEntry i).meter == m && l.entryHolds (l.activeEntry i))).map
    (fun i => { bank := l.active, entry := i, src := (l.activeEntry i).src,
                dst := (l.activeEntry i).dst })

/-- The source and destination of a route (R84). -/
def Route.ends (r : Route) : Nat × Nat := (r.src, r.dst)

/-! ## Segments -/

/-- A meter changed. -/
def Lineage.updMeter (l : Lineage) (m : Nat) (f : Meter → Meter) : Lineage :=
  l.setMeter m (f (l.meter m))

/-- Opening a segment (R86). -/
def State.openSegment (s : State) (m : Nat) : State :=
  s.setLin (s.lin.updMeter m (fun x => { x with seg := { start := s.now } }))

/-- Closing a segment: a SEGMENT record when its volume is above 0 (R88). -/
def State.closeSegment (s : State) (m : Nat) (reason : SegReason) (tag : Nat) : State :=
  let x := s.lin.meter m
  if x.seg.vol == 0 then s
  else
    s.write tag (.segment
      { meter := m, route := x.route, start := x.seg.start, stop := s.now, vol := x.seg.vol,
        flags := x.seg.flags, reason := reason })

/-- One meter's resolution compared with its current route (R84). -/
def State.resolveMeter (s : State) (tag : Nat) (m : Nat) : State :=
  let old := (s.lin.meter m).route
  let new := s.lin.resolve m
  if old.map Route.ends == new.map Route.ends then
    s.setLin (s.lin.updMeter m (fun x => { x with route := new }))
  else
    let s1 := s.closeSegment m .route tag
    (s1.setLin (s1.lin.updMeter m (fun x => { x with route := new }))).openSegment m

/-- The active bank has a valid entry for a meter with a condition in use on a cluster (R85). -/
def Lineage.dependsOn (l : Lineage) (cluster m : Nat) : Bool :=
  (List.range 128).any (fun i =>
    let e := l.activeEntry i
    e.valid && e.meter == m && e.inUse.any (fun c => c.cluster == cluster))

/-- The operation of a VALVE entry (R80, R85). -/
def State.opValve (s : State) (tag cluster : Nat) (value : Word16) : State :=
  let s1 := s.setLin { s.lin with clusters := vset s.lin.clusters cluster ⟨value, true⟩ }
  ((List.range 48).filter (s1.lin.dependsOn cluster)).foldl (State.resolveMeter · tag) s1

/-! ## Where metered volume goes -/

/-- Counting a volume in the open segment, which is closed and opened again at its limit (R87). -/
def State.countSegment (s : State) (m v tag : Nat) : State :=
  let s1 :=
    if Config.volume48Max < (s.lin.meter m).seg.vol + v then
      (s.closeSegment m .limit tag).openSegment m
    else s
  s1.setLin (s1.lin.updMeter m (fun x => { x with seg := { x.seg with vol := x.seg.vol + v } }))

/-- A flag of the open segment set (R86). -/
def State.flagSegment (s : State) (m : Nat) (f : SegFlags → SegFlags) : State :=
  s.setLin (s.lin.updMeter m (fun x => { x with seg := { x.seg with flags := f x.seg.flags } }))

/-- The vessels that valid entries of the active bank name for a meter (R90). -/
def Lineage.candidates (l : Lineage) (m : Nat) : List Nat :=
  ((List.range 128).filter (fun i => (l.activeEntry i).valid && (l.activeEntry i).meter == m)).flatMap
    (fun i => [(l.activeEntry i).src, (l.activeEntry i).dst])

/-- The four cases of R89. -/
inductive FlowCase
  | unrouted
  | loop
  | cleaning (src dst : Nat)
  | routed (src dst : Nat)
  deriving DecidableEq, Repr

/-- The first case of R89 that applies to a route. -/
def Lineage.flowCase (l : Lineage) : Option Route → FlowCase
  | none => .unrouted
  | some r =>
    if r.src == r.dst then .loop
    else if l.isCleaning r.src || l.isCleaning r.dst then .cleaning r.src r.dst
    else .routed r.src r.dst

/-- A volume is a jump of a meter (R26). -/
def Meter.jumps (x : Meter) (v : Nat) : Bool := 0 < x.jump && x.jump < v

/-- The filler that a condition of a meter names: the destination of its current route (R131). -/
def Lineage.routeFiller (l : Lineage) (m : Nat) : Option Nat :=
  match (l.meter m).route with
  | none => none
  | some r => l.namedFiller r.dst

/-- Unrouted flow (R90). -/
def State.flowUnrouted (s : State) (m v tag : Nat) : State :=
  let s1 := s.flagSegment m (fun f => { f with unrouted := true })
  let s2 := s1.setLin (s1.lin.setUncertainAll (s1.lin.candidates m))
  s2.raise tag none (.unrouted m v)

/-- Cleaning flow (R92). -/
def State.flowCleaning (s : State) (m src dst v tag : Nat) : State :=
  let s1 := s.flagSegment m (fun f => { f with cleaning := true })
  let s2 := if s1.lin.isCleaning dst then s1 else s1.setUncertain dst
  s2.raise tag (s.lin.namedFiller dst) (.cleaningFlow m src dst v)

/-- The cap of R93: what one reading carries above the ceiling is flagged and raised. -/
def State.flowCap (s : State) (m src dst v tag : Nat) : State :=
  if Config.contentCeiling < v then
    let s1 := s.flagSegment m (fun f => { f with capped := true })
    ((s1.setUncertain src).setUncertain dst).raise tag (s.lin.namedFiller dst)
      (.overfill dst (v - Config.contentCeiling))
  else s

/-- Routed flow (R93). `doubt` says that R26 has set the uncertain flags of the parties. -/
def State.flowRouted (s : State) (m src dst v tag : Nat) (doubt : Bool) : State :=
  let s1 := s.flowCap m src dst v tag
  (s1.transfer src dst (min v Config.contentCeiling) tag
    (doubt || decide (Config.contentCeiling < v))).st

/-- What R26 does to a volume above the jump limit before it is counted (R25): the flags of the
parties in the routed case, and METER_JUMP. -/
def State.flowJump (s : State) (m v tag : Nat) (c : FlowCase) : State :=
  let s1 :=
    match c with
    | .routed src dst => (s.setUncertain src).setUncertain dst
    | .unrouted => s
    | .loop => s
    | .cleaning _ _ => s
  s1.raise tag (s.lin.routeFiller m) (.meterJump m v)

/-- The case of R89 carried out. `jump` says that R26 has set the flags of the parties. -/
def State.flowByCase (s : State) (m v tag : Nat) (jump : Bool) : FlowCase → State
  | .unrouted => s.flowUnrouted m v tag
  | .loop => s.flagSegment m (fun f => { f with sameVessel := true })
  | .cleaning src dst => s.flowCleaning m src dst v tag
  | .routed src dst => s.flowRouted m src dst v tag jump

/-- The flag of a volume above the jump limit, on the segment that counted the volume (R86, R89,
log 32). -/
def State.flagJump (s : State) (m : Nat) (jump : Bool) : State :=
  if jump then s.flagSegment m (fun f => { f with jump := true }) else s

/-- A volume above 0: the check against the jump limit first (R25, R26), then the segment (R87) with
its flag, then the case (R89). -/
def State.flow (s : State) (m v tag : Nat) : State :=
  let x := s.lin.meter m
  let c := s.lin.flowCase x.route
  let jump := x.jumps v
  let s1 := if jump then s.flowJump m v tag c else s
  ((s1.countSegment m v tag).flagJump m jump).flowByCase m v tag jump c

/-- The operation of a METER entry (R23 to R26, R87, R89). -/
def State.opMeter (s : State) (tag m t : Nat) : State :=
  let x := s.lin.meter m
  if !x.configured then s
  else
    match readMeterTotal x t with
    | .first y => s.setLin (s.lin.setMeter m y)
    | .backward y old new =>
      (s.setLin (s.lin.setMeter m y)).raise tag (s.lin.routeFiller m) (.meterStep m old new)
    | .forward y v =>
      let s1 := s.setLin (s.lin.setMeter m y)
      if v == 0 then s1 else s1.flow m v tag

/-! ## All meters at once -/

/-- Every meter's route set to its resolution (R94, R96). -/
def Lineage.resolveAll (l : Lineage) : Lineage :=
  (List.range 48).foldl
    (fun acc m => acc.updMeter m (fun x => { x with route := l.resolve m })) l

/-- A new segment for every meter (R94, R96). -/
def Lineage.openAll (l : Lineage) (now : TimeStamp) : Lineage :=
  (List.range 48).foldl (fun acc m => acc.updMeter m (fun x => { x with seg := { start := now } })) l

/-- The operation of SWITCH_BANK (R94). -/
def State.opSwitchBank (s : State) (tag : Nat) : State :=
  let s1 := (List.range 48).foldl (fun acc m => acc.closeSegment m .switch tag) s
  let l := { s1.lin with active := s1.lin.active.other }
  let s2 := s1.setLin (l.resolveAll.openAll s1.now)
  s2.write tag (.engineSwitch l.active)

end Sys2Proof.Machine
end

