-- ==== Sys2Proof/Machine/Bay.lean ====
section
/-! DEFINITION. Intake bays: manifests (R63 to R67), selecting and closing compartments (R68 to R71),
and cleaning a bay (R76, R77). Draws from a bay are in Transfer.lean (R72 to R75). -/

namespace Sys2Proof.Machine

open Sys2Proof

/-! ## Slots -/

/-- A slot of a ring. -/
def Ring.slot (r : Ring) (k : Nat) : Slot := vget r.slots k {}

def Ring.setSlot (r : Ring) (k : Nat) (c : Slot) : Ring := { r with slots := vset r.slots k c }

/-- The six slot numbers from `start` on, from 5 round to 0. -/
def slotsFrom (start : Nat) : List Nat := (List.range 6).map (fun k => (start + k) % 6)

/-- The slot tagged LOADED or DISCHARGING that carries a tanker and a compartment. -/
def Ring.matching (r : Ring) (tanker comp : Nat) : Option Nat :=
  (List.range 6).find? (fun k =>
    (r.slot k).tag != .empty && (r.slot k).tanker == tanker && (r.slot k).comp == comp)

/-- The EMPTY slot a claim takes (R65). -/
def Ring.claimable (r : Ring) : Option Nat :=
  (slotsFrom r.fill).find? (fun k => (r.slot k).tag == .empty)

/-- The slot tagged DISCHARGING (R62). -/
def Ring.discharging (r : Ring) : Option Nat :=
  (List.range 6).find? (fun k => (r.slot k).tag == .discharging)

/-- The slots not EMPTY, in slot order. -/
def Ring.occupied (r : Ring) : List Nat :=
  (List.range 6).filter (fun k => (r.slot k).tag != .empty)

/-- A ring with all slots EMPTY and both pointers at slot 0 (R79). -/
def Ring.cleared : Ring := {}

/-- Tagging a slot. -/
def Ring.tagSlot (r : Ring) (k : Nat) (t : SlotTag) : Ring :=
  r.setSlot k { r.slot k with tag := t }

/-- A slot made DISCHARGING, with the discharge pointer on it. -/
def Ring.select (r : Ring) (k : Nat) : Ring := { r.tagSlot k .discharging with disch := k }

/-! ## Manifests -/

/-- The fields of an item are within their ranges (R63, step 2). -/
def ManifestItem.valid (i : ManifestItem) : Bool :=
  i.tanker ≤ 65535 && 1 ≤ i.comp && i.comp ≤ 15 && i.farm ≤ 16777215 && i.cat ≤ 7 &&
  1 ≤ i.vol && i.vol ≤ Config.contentCeiling

/-- What a condition of an item carries (R66). -/
def ManifestItem.who (i : ManifestItem) (v : Option Nat) : IntakeWho :=
  { vessel := v, bay := i.bay, tanker := i.tanker, comp := i.comp, farm := i.farm }

/-- The collection record of an item whose entry the engine took at `taken` (R46, R47). -/
def State.newColl (s : State) (taken : TimeStamp) (i : ManifestItem) : CollRec :=
  { serial := s.lin.issueColl
    cat := Fin.ofNat 8 i.cat
    mark := s.lin.farms.contains i.farm
    refs := 1
    info := some
      { farm := i.farm, tanker := i.tanker, comp := i.comp, manifestVol := i.vol,
        sample := i.sample, collTime := i.collTime, bay := i.bay, intakeTime := taken } }

/-- A collection record created and its COLLECTION record written (R47). -/
def State.createColl (s : State) (r : CollRec) (tag : Nat) : State :=
  (s.setLin { s.lin.addColl r with collNext := nextSerial r.serial }).write tag (.collection r)

/-- The share of a new collection (R47, R64). -/
def CollRec.share (r : CollRec) (vol : Nat) : CompShare :=
  { key := .coll r.serial, remaining := vol, manifest := vol }

/-- A slot claimed for a collection (R65). -/
def Ring.claim (r : Ring) (k : Nat) (i : ManifestItem) (sh : CompShare) (now : TimeStamp) : Ring :=
  let idle := r.discharging.isNone
  let r1 := r.setSlot k
    { tag := .loaded, tanker := i.tanker, comp := i.comp, shares := [sh], drawn := 0,
      openTime := now }
  let r2 := { r1 with fill := (k + 1) % 6 }
  if idle then r2.select k else r2

/-- A share appended to a slot (R64). -/
def Ring.append (r : Ring) (k : Nat) (sh : CompShare) : Ring :=
  r.setSlot k { r.slot k with shares := (r.slot k).shares ++ [sh] }

/-- The admission of an item to slot `k` (R64, R65, R67). -/
def State.takeIn (s : State) (taken : TimeStamp) (v k : Nat) (i : ManifestItem) (claims : Bool)
    (tag : Nat) : State :=
  let r := s.newColl taken i
  let s1 := s.createColl r tag
  let ring := s1.lin.ring i.bay
  let sh := r.share i.vol
  let ring' := if claims then ring.claim k i sh s1.now else ring.append k sh
  s1.setLin ((s1.lin.setRing i.bay ring').rederive v)

/-- Steps 5 and 6 of R63, then the admission. -/
def State.admitOrRefuse (s : State) (taken : TimeStamp) (v k : Nat) (i : ManifestItem)
    (claims : Bool) (tag : Nat) : State :=
  if Config.contentCeiling < (s.lin.ring i.bay).content + i.vol then
    s.raise tag none (.overfill v i.vol)
  else if s.lin.freeColls == 0 then s.raise tag none (.collTableFull (i.who (some v)))
  else s.takeIn taken v k i claims tag

/-- The operation of a MANIFEST entry taken at `taken` (R63). -/
def State.opManifest (s : State) (tag : Nat) (taken : TimeStamp) (i : ManifestItem) : State :=
  match s.lin.bayVessel i.bay with
  | none => s.raise tag none (.compartmentUnknown (i.who none) .noBay)
  | some v =>
    let ring := s.lin.ring i.bay
    if !i.valid then s.raise tag none (.compartmentUnknown (i.who (some v)) .invalidField)
    else if s.lin.isCleaning v then s.raise tag none (.bayRingFull (i.who (some v)))
    else
      match ring.matching i.tanker i.comp with
      | some k =>
        if Config.shareMax ≤ (ring.slot k).shares.length then
          s.raise tag none (.compartmentFull (i.who (some v)) k)
        else s.admitOrRefuse taken v k i false tag
      | none =>
        match ring.claimable with
        | none => s.raise tag none (.bayRingFull (i.who (some v)))
        | some k => s.admitOrRefuse taken v k i true tag

/-! ## Selecting and closing compartments -/

/-- COMPARTMENT_UNKNOWN raised by a COMP_ entry, which gives no farm (R66). -/
def State.raiseUnknown (s : State) (tag : Nat) (v : Option Nat) (bay tanker comp : Nat)
    (cause : UnknownCause) : State :=
  s.raise tag none
    (.compartmentUnknown { vessel := v, bay := bay, tanker := tanker, comp := comp, farm := 0 } cause)

/-- The operation of a COMP_SELECT entry (R68). -/
def State.opCompSelect (s : State) (tag bay tanker comp : Nat) : State :=
  match s.lin.bayVessel bay with
  | none => s.raiseUnknown tag none bay tanker comp .noBay
  | some v =>
    let ring := s.lin.ring bay
    match ring.matching tanker comp with
    | none => s.raiseUnknown tag (some v) bay tanker comp .noMatch
    | some k =>
      if (ring.slot k).tag == .discharging then s
      else
        let released :=
          match ring.discharging with
          | none => ring
          | some j => ring.tagSlot j .loaded
        s.setLin (s.lin.setRing bay (released.select k))

/-- Closing a slot (R69): the record, the release of its keys, the slot EMPTY, the flag. -/
def State.closeSlot (s : State) (v bay : Nat) (reason : SlotReason) (tag : Nat) (k : Nat) : State :=
  let c := (s.lin.ring bay).slot k
  let s1 := s.write tag (.compartment
    { vessel := v, bay := bay, slot := k, tanker := c.tanker, comp := c.comp,
      openTime := c.openTime, manifest := c.manifestTotal, drawn := c.drawn,
      remaining := c.remainingTotal, reason := reason, shares := c.shares })
  let l := s1.lin.releaseAll (c.shares.map CompShare.key)
  s1.setLin ((l.setRing bay ((l.ring bay).setSlot k {})).rederive v)

/-- The next LOADED slot after one just closed becomes DISCHARGING, if there is one (R70). -/
def Ring.advance (r : Ring) (closed : Nat) : Ring :=
  match (slotsFrom (closed + 1)).find? (fun k => (r.slot k).tag == .loaded) with
  | none => r
  | some k => r.select k

/-- The DISCHARGING slot `k` closed and the next LOADED slot selected (R70, R71). -/
def State.finishSlot (s : State) (v bay : Nat) (reason : SlotReason) (tag : Nat) (k : Nat) :
    State :=
  let s1 := s.closeSlot v bay reason tag k
  s1.setLin (s1.lin.setRing bay ((s1.lin.ring bay).advance k))

/-- The operation of a COMP_DONE entry (R70). -/
def State.opCompDone (s : State) (tag bay : Nat) : State :=
  match s.lin.bayVessel bay with
  | none => s.raiseUnknown tag none bay 0 0 .noBay
  | some v =>
    match (s.lin.ring bay).discharging with
    | none => s.raiseUnknown tag (some v) bay 0 0 .notDischarging
    | some k => s.finishSlot v bay .done tag k

/-- The operation of a COMP_REJECT entry (R71). -/
def State.opCompReject (s : State) (tag bay tanker comp : Nat) : State :=
  match s.lin.bayVessel bay with
  | none => s.raiseUnknown tag none bay tanker comp .noBay
  | some v =>
    let ring := s.lin.ring bay
    match ring.matching tanker comp with
    | none => s.raiseUnknown tag (some v) bay tanker comp .noMatch
    | some k =>
      if (ring.slot k).tag == .discharging then s.finishSlot v bay .rejected tag k
      else s.closeSlot v bay .rejected tag k

/-! ## Cleaning a bay -/

/-- CIP_START on a BAY (R76). -/
def State.bayCipStart (s : State) (tag v : Nat) : State :=
  let x := s.lin.vessel v
  if x.state == .cleaning then
    s.write tag (.vessel { vessel := v, action := .cipStart, result := .busy })
  else
    let slots := (s.lin.ring x.bayIndex).occupied
    let s1 := slots.foldl (State.closeSlot · v x.bayIndex .cleaned tag) s
    let l := s1.lin.setRing x.bayIndex Ring.cleared
    let s2 := s1.setLin
      (l.setVessel v { l.vessel v with state := .cleaning, uncertain := false, suspect := false })
    s2.write tag (.vessel
      { vessel := v, action := .cipStart, result := .done, count := slots.length })

/-- CIP_END on a BAY (R77). -/
def State.bayCipEnd (s : State) (tag v : Nat) : State :=
  let x := s.lin.vessel v
  if x.state == .cleaning then
    let l := s.lin.setRing x.bayIndex Ring.cleared
    (s.setLin (l.setVessel v { x with state := .holding, uncertain := false, suspect := false })).write
      tag (.vessel { vessel := v, action := .cipEnd, result := .done })
  else s.write tag (.vessel { vessel := v, action := .cipEnd, result := .badArgument })

end Sys2Proof.Machine
end

