-- ==== Sys2Proof/Machine/Vessel.lean ====
section
/-! DEFINITION. Vessels: CIP (R15 to R17, R112), VESSEL_WRITE (R18, R19), MANUAL_TRANSFER (R43, R44)
and LOAD_VESSEL (R3, R4). -/

namespace Sys2Proof.Machine

open Sys2Proof

/-! ## CIP -/

/-- CIP_START on a STORE (R15). -/
def State.storeCipStart (s : State) (tag v : Nat) : State :=
  let x := s.lin.vessel v
  if x.state == .cleaning then
    s.write tag (.vessel { vessel := v, action := .cipStart, result := .busy })
  else
    let s1 := s.write tag (.vessel
      { vessel := v, action := .cipStart, result := .done, cat := x.cat,
        content := total x.list, list := x.list })
    let l := s1.lin.releaseAll (keysOf x.list)
    s1.setLin (l.setVessel v
      { x with state := .cleaning, list := [], cat := none, uncertain := false, suspect := false })

/-- CIP_END on a STORE (R16). -/
def State.storeCipEnd (s : State) (tag v : Nat) : State :=
  let x := s.lin.vessel v
  if x.state == .holding then
    s.write tag (.vessel { vessel := v, action := .cipEnd, result := .badArgument })
  else
    (s.setLin (s.lin.setVessel v
      { x with state := .holding, list := [], cat := none, uncertain := false,
               suspect := false })).write tag
      (.vessel { vessel := v, action := .cipEnd, result := .done })

/-- CIP_START on a FILLER (R112). -/
def State.fillerCipStart (s : State) (tag v : Nat) : State :=
  let f := (s.lin.vessel v).fillerIndex
  match (s.lin.filler f).state with
  | .cleaning => s.write tag (.vessel { vessel := v, action := .cipStart, result := .busy })
  | .idle =>
    (s.setLin (s.lin.setFiller f { s.lin.filler f with state := .cleaning })).write tag
      (.vessel { vessel := v, action := .cipStart, result := .done })
  | .batchOpen =>
    (s.closeBatch f .cip tag none .cleaning).write tag
      (.vessel { vessel := v, action := .cipStart, result := .done })

/-- CIP_END on a FILLER (R112). -/
def State.fillerCipEnd (s : State) (tag v : Nat) : State :=
  let f := (s.lin.vessel v).fillerIndex
  if (s.lin.filler f).state == .cleaning then
    (s.setLin (s.lin.setFiller f { s.lin.filler f with state := .idle })).write tag
      (.vessel { vessel := v, action := .cipEnd, result := .done })
  else s.write tag (.vessel { vessel := v, action := .cipEnd, result := .badArgument })

/-- The operation of a CIP_START entry, by the owner of the vessel's kind (R17). An index above 63
reads as a vessel of kind NONE (R176). -/
def State.opCipStart (s : State) (tag v : Nat) : State :=
  match (s.lin.vessel v).kind with
  | .unconfigured => s.write tag (.vessel { vessel := v, action := .cipStart, result := .badArgument })
  | .store => s.storeCipStart tag v
  | .bay => s.bayCipStart tag v
  | .filler => s.fillerCipStart tag v

/-- The operation of a CIP_END entry (R17). -/
def State.opCipEnd (s : State) (tag v : Nat) : State :=
  match (s.lin.vessel v).kind with
  | .unconfigured => s.write tag (.vessel { vessel := v, action := .cipEnd, result := .badArgument })
  | .store => s.storeCipEnd tag v
  | .bay => s.bayCipEnd tag v
  | .filler => s.fillerCipEnd tag v

/-! ## VESSEL_WRITE -/

/-- A key is a C key that is not resident. -/
def Lineage.newCollKey (l : Lineage) : Key → Bool
  | .coll n => !l.resident (.coll n)
  | _ => false

/-- A key is a B key that is not resident. -/
def Lineage.newBlendKey (l : Lineage) : Key → Bool
  | .blend n => !l.resident (.blend n)
  | _ => false

/-- Step 4 of R18: the tables have an entry for every key that is not resident. -/
def Lineage.roomFor (l : Lineage) (ks : List Key) : Bool :=
  (ks.filter l.newCollKey).length ≤ l.freeColls && (ks.filter l.newBlendKey).length ≤ l.freeBlends

/-- The result of the checks of R18, in their order. -/
def Lineage.checkWrite (l : Lineage) (w : WriteArgs) : Status :=
  let x := l.vessel w.vessel
  if x.kind != .store then .badArgument
  else if x.state == .cleaning then .busy
  else if !w.valid x.capacity then .badArgument
  else if !l.roomFor (keysOf w.list) then .tableFull
  else .done

/-- The opaque record of a key that is not resident (R19, R49). -/
def Lineage.makeOpaque (l : Lineage) (e : WriteEntry) : Lineage :=
  match e.share.key with
  | .unknown => l
  | .coll n =>
    if l.resident (.coll n) then l
    else l.addColl { serial := n, cat := Fin.ofNat 8 e.cat, mark := false, refs := 0, info := none }
  | .blend n =>
    if l.resident (.blend n) then l
    else
      l.addBlend
        { serial := n, cat := Fin.ofNat 8 e.cat, direct := false, derived := false, refs := 0,
          info := none }

/-- The content replaced (R19, steps 1 to 4). -/
def Lineage.applyWrite (l : Lineage) (w : WriteArgs) : Lineage :=
  let x := l.vessel w.vessel
  let l1 := w.entries.foldl Lineage.makeOpaque l
  let l2 := (l1.addRefs (keysOf w.list)).releaseAll (keysOf x.list)
  (l2.setVessel w.vessel
    { x with state := .holding, list := w.list, cat := (catOfByte w.cat).getD none,
             uncertain := flagSet w.uncertain }).rederive w.vessel

/-- The number of opaque records a write creates (R19). -/
def Lineage.opaqueCount (l : Lineage) (ks : List Key) : Nat :=
  (ks.filter l.newCollKey).length + (ks.filter l.newBlendKey).length

/-- The operation of VESSEL_WRITE (R18, R19). -/
def State.opVesselWrite (s : State) (tag : Nat) (w : WriteArgs) : State :=
  let result := s.lin.checkWrite w
  if result == .done then
    (s.setLin (s.lin.applyWrite w)).write tag (.vessel
      { vessel := w.vessel, action := .write, result := .done,
        cat := (catOfByte w.cat).getD none, uncertain := flagSet w.uncertain,
        count := s.lin.opaqueCount (keysOf w.list), list := w.list })
  else s.write tag (.vessel { vessel := w.vessel, action := .write, result := result })

/-! ## MANUAL_TRANSFER -/

/-- The checks of R43, in their order. -/
def Lineage.checkManual (l : Lineage) (src dst v : Nat) : Status :=
  let a := (l.vessel src).kind
  let b := (l.vessel dst).kind
  if 63 < src || 63 < dst || src == dst || v == 0 || Config.contentCeiling < v ||
      !(a == .store || a == .bay) || !(b == .store || b == .filler) then .badArgument
  else if l.isCleaning src || l.isCleaning dst then .busy
  else .done

/-- What MANUAL_TRANSFER does before the hold evaluation, with the record that follows the
evaluation. The MANUAL record of a refusal is written at the check, that of a transfer after the
evaluation (R43, R44, R137). -/
def State.opManual (s : State) (tag src dst v : Nat) : State × List Payload :=
  let result := s.lin.checkManual src dst v
  if result == .done then
    let t := s.transfer src dst v tag false
    (t.st, [.manual .done src dst v (some
      { portions := t.merged, discarded := t.discarded, stepA := t.stepA, stepB := t.stepB,
        truncated := t.truncated })])
  else (s.write tag (.manual result src dst v none), [])

/-! ## LOAD_VESSEL -/

/-- Another entry carries the same bay or filler index (R3, step 2). -/
def Lineage.indexTaken (l : Lineage) (v : Nat) : VesselCfg → Bool
  | .bay i _ => (List.range 64).any (fun u =>
      u != v && (l.vessel u).kind == .bay && (l.vessel u).bayIndex == i)
  | .filler i .. => (List.range 64).any (fun u =>
      u != v && (l.vessel u).kind == .filler && (l.vessel u).fillerIndex == i)
  | _ => false

/-- The configuration changes the kind, or the bay or filler index (R3, step 3). -/
def Vessel.changes (x : Vessel) : VesselCfg → Bool
  | .unconfigured => x.kind != .unconfigured
  | .store _ => x.kind != .store
  | .bay i _ => !(x.kind == .bay && x.bayIndex == i)
  | .filler i .. => !(x.kind == .filler && x.fillerIndex == i)
  | .unknown _ => false

/-- A bank has a valid entry that names a vessel as source or destination. -/
def bankNames (b : Vector RouteEntry 128) (v : Nat) : Bool :=
  b.toList.any (fun e => e.valid && (e.src == v || e.dst == v))

/-- The entry as it stands is in use (R3, step 3). -/
def Lineage.inUse (l : Lineage) (v : Nat) : Bool :=
  let x := l.vessel v
  let held :=
    match x.kind with
    | .unconfigured => false
    | .store => x.state == .holding && !x.list.isEmpty
    | .bay => !(l.ring x.bayIndex).occupied.isEmpty
    | .filler =>
      (l.filler x.fillerIndex).state == .batchOpen || !(l.filler x.fillerIndex).ring.isEmpty
  held || bankNames (l.bank l.active) v

/-- The status of a LOAD_VESSEL (R3). -/
def Lineage.checkLoadVessel (l : Lineage) (v : Nat) (cfg : VesselCfg) : Status :=
  if 63 < v || !cfg.inRange then .badArgument
  else if l.indexTaken v cfg then .tableInvalid
  else if (l.vessel v).changes cfg && l.inUse v then .inUse
  else .done

/-- The configuration fields of an entry written, zero into those of the other kinds (R2). -/
def Vessel.configure (x : Vessel) (cfg : VesselCfg) : Vessel :=
  let y : Vessel :=
    { kind := cfg.vesselKind, state := x.state, list := x.list, cat := x.cat,
      uncertain := x.uncertain, suspect := x.suspect }
  match cfg with
  | .unconfigured => y
  | .store c => { y with capacity := c }
  | .bay i t => { y with bayIndex := i, tolerance := t }
  | .filler i n c p t a =>
    { y with fillerIndex := i, fillerNumber := n, coderAddr := c,
             coderPort := (portOfByte p).getD .a, idleTimeout := t, autoProduct := a }
  | .unknown _ => x

/-- The content an entry starts with under a new kind or index (R4). -/
def freshVessel : VesselCfg → Vessel
  | .store _ => { state := .unseeded, cat := some 0, uncertain := true }
  | .bay .. => { state := .holding }
  | .filler .. => { state := .holding }
  | .unconfigured => {}
  | .unknown _ => {}

/-- The ring or the filler record that a new BAY or FILLER entry starts with (R4). -/
def Lineage.freshParts (l : Lineage) : VesselCfg → Lineage
  | .bay i _ => l.setRing i Ring.cleared
  | .filler i .. => l.setFiller i {}
  | _ => l

/-- A kind forbids the role in which a route entry names a vessel (R4). -/
def RouteEntry.forbids (e : RouteEntry) (v : Nat) : VesselKind → Bool
  | .unconfigured => e.src == v || e.dst == v
  | .store => false
  | .bay => e.dst == v
  | .filler => e.src == v

/-- The entries of a bank that name a vessel in a forbidden role made invalid (R4). -/
def spoilBank (b : Vector RouteEntry 128) (v : Nat) (k : VesselKind) : Vector RouteEntry 128 :=
  b.map (fun e => if e.valid && e.forbids v k then { e with valid := false } else e)

/-- The inactive bank after a vessel has changed its kind (R4). -/
def Lineage.spoilInactive (l : Lineage) (v : Nat) (k : VesselKind) : Lineage :=
  match l.active with
  | .a => { l with bankB := spoilBank l.bankB v k }
  | .b => { l with bankA := spoilBank l.bankA v k }

/-- An accepted LOAD_VESSEL (R4). A filler record whose index the vessel gives up stays as it stands,
the model's choice (log 37). -/
def Lineage.applyLoadVessel (l : Lineage) (v : Nat) (cfg : VesselCfg) : Lineage :=
  let x := l.vessel v
  if x.changes cfg then
    let l1 := (l.freshParts cfg).setVessel v ((freshVessel cfg).configure cfg)
    if x.kind == cfg.vesselKind then l1 else l1.spoilInactive v cfg.vesselKind
  else l.setVessel v (x.configure cfg)

/-- LOAD_VESSEL carried out: its status and its effect (R3, R4). -/
def State.loadVessel (s : State) (v : Nat) (cfg : VesselCfg) : State × Status :=
  let r := s.lin.checkLoadVessel v cfg
  if r == .done then (s.setLin (s.lin.applyLoadVessel v cfg), r) else (s, r)

end Sys2Proof.Machine
end

