-- ==== Sys2Proof/Machine/Suspect.lean ====
section
/-! DEFINITION. Suspect marking: the marks (R122 to R124), the two sweeps (R125, R126), the
re-derivation and the records (R127). One operation serves the six commands (R121). -/

namespace Sys2Proof.Machine

open Sys2Proof

/-! ## Phase 1: marks -/

/-- What phase 1 leaves: the lineage, the outcome, the marks changed, and the blend whose direct
mark changed. -/
structure Marked where
  lin : Lineage
  result : Status
  marks : Nat := 0
  direct : Option Nat := none
  deriving DecidableEq, Repr

/-- A record carries a sample id (R123). -/
def CollRec.hasSample (r : CollRec) (n : Nat) : Bool :=
  match r.info with
  | none => false
  | some i => i.sample == some n

/-- A record carries a farm id (R124). -/
def CollRec.hasFarm (r : CollRec) (n : Nat) : Bool :=
  match r.info with
  | none => false
  | some i => i.farm == n

/-- The collections that satisfy a test. -/
def Lineage.collsWhere (l : Lineage) (p : CollRec → Bool) : List CollRec :=
  (l.colls.map Prod.snd).filter p

/-- The marks of the collections that satisfy a test set to `on`, with the number changed. -/
def Lineage.markWhere (l : Lineage) (on : Bool) (p : CollRec → Bool) : Marked :=
  { lin :=
      { l with colls := l.colls.map (fun e => if p e.2 then (e.1, { e.2 with mark := on }) else e) }
    result := .done
    marks := ((l.collsWhere p).filter (fun r => r.mark != on)).length }

/-- SUSPECT_KEY and RELEASE_KEY (R122). -/
def Lineage.markKey (l : Lineage) (on : Bool) : Key → Marked
  | .unknown => { lin := l, result := .badArgument }
  | .coll n =>
    if l.resident (.coll n) then l.markWhere on (fun r => r.serial == n)
    else { lin := l, result := .notResident }
  | .blend n =>
    match l.findBlend n with
    | none => { lin := l, result := .notResident }
    | some (_, r) =>
      { lin := l.updBlend n (fun b => { b with direct := on }), result := .done,
        direct := if r.direct == on then none else some n }

/-- SUSPECT_SAMPLE and RELEASE_SAMPLE (R123). -/
def Lineage.markSample (l : Lineage) (on : Bool) (n : Nat) : Marked :=
  if (l.collsWhere (fun r => r.hasSample n)).isEmpty then { lin := l, result := .notResident }
  else l.markWhere on (fun r => r.hasSample n)

/-- SUSPECT_FARM (R124). -/
def Lineage.suspectFarm (l : Lineage) (n : Nat) : Marked :=
  if l.farms.contains n then l.markWhere true (fun r => r.hasFarm n)
  else if Config.farmListMax ≤ l.farms.length then { lin := l, result := .listFull }
  else { l with farms := l.farms ++ [n] }.markWhere true (fun r => r.hasFarm n)

/-- RELEASE_FARM (R124). -/
def Lineage.releaseFarm (l : Lineage) (n : Nat) : Marked :=
  if l.farms.contains n || !(l.collsWhere (fun r => r.hasFarm n)).isEmpty then
    { l with farms := l.farms.filter (· != n) }.markWhere false (fun r => r.hasFarm n)
  else { lin := l, result := .notResident }

/-- The argument check of R121, then the marks of the command. -/
def Lineage.marks (l : Lineage) (release : Bool) : MarkArg → Marked
  | .key k =>
    match k.toRecordKey with
    | none => { lin := l, result := .badArgument }
    | some key => l.markKey (!release) key
  | .sample n => l.markSample (!release) n
  | .farm n =>
    if 16777215 < n then { lin := l, result := .badArgument }
    else if release then l.releaseFarm n
    else l.suspectFarm n

/-! ## Phase 2: the sweeps -/

/-- A visit to one blend: its flag is set when a member is suspect (R125). -/
def Lineage.visit (acc : Lineage × Nat) (serial : Nat) : Lineage × Nat :=
  match acc.1.findBlend serial with
  | none => acc
  | some (_, r) =>
    if !r.derived && acc.1.listSuspect (keysOf r.members) then
      (acc.1.updBlend serial (fun b => { b with derived := true }), acc.2 + 1)
    else acc

/-- One pass over the Blend Table in index order, with the number of flags it set (R125). -/
def Lineage.pass (l : Lineage) : Lineage × Nat :=
  (l.blends.map (fun e => e.2.serial)).foldl Lineage.visit (l, 0)

/-- Passes until one sets no flag, with their number (R125). Every pass but the last sets a flag, so
one more than the resident blends is fuel enough. -/
def Lineage.passes : Nat → Lineage → Lineage × Nat
  | 0, l => (l, 0)
  | fuel + 1, l =>
    let (l1, set) := l.pass
    if set == 0 then (l1, 1)
    else
      let (l2, n) := Lineage.passes fuel l1
      (l2, n + 1)

/-- The direct marks of phase 1 carried to the flag (R125, step 1). -/
def Lineage.markDirect (l : Lineage) : Option Nat → Lineage
  | none => l
  | some n => l.updBlend n (fun b => { b with derived := true })

/-- Every flag set to its direct mark (R126, step 1). -/
def Lineage.resetDerived (l : Lineage) : Lineage :=
  { l with blends := l.blends.map (fun e => (e.1, { e.2 with derived := e.2.direct })) }

/-- The marking sweep or the release sweep, with its passes (R125, R126). -/
def Lineage.sweep (l : Lineage) (release : Bool) (direct : Option Nat) : Lineage × Nat :=
  let start := if release then l.resetDerived else l.markDirect direct
  Lineage.passes (start.blends.length + 1) start

/-- The number of blends whose flag differs between two states of one table. -/
def blendChanges (before after : List (Nat × BlendRec)) : Nat :=
  ((before.zip after).filter (fun p => p.1.2.derived != p.2.2.derived)).length

/-! ## Phase 3: re-derivation -/

/-- Every batch record of every ring re-derived (R127). -/
def Lineage.rederiveBatches (l : Lineage) : Lineage :=
  { l with
    fillers := l.fillers.map (fun f =>
      { f with ring := f.ring.map (fun b => { b with suspect := l.batchSuspect b }) }) }

/-- The batch records in the order of R127: fillers 0 to 7, each ring oldest to newest. -/
def Lineage.allBatches (l : Lineage) : List Batch := l.fillers.toList.flatMap Filler.ring

/-- The batches whose flag differs, as they stand after. -/
def batchChanges (before after : List Batch) : List Batch :=
  ((before.zip after).filter (fun p => p.1.suspect != p.2.suspect)).map Prod.snd

/-- Every configured vessel re-derived, in ascending index (R127). -/
def Lineage.rederiveVessels (l : Lineage) : Lineage :=
  (List.range 64).foldl Lineage.rederive l

/-- The number of vessels whose flag, as it is read, differs. -/
def vesselChanges (before after : Lineage) : Nat :=
  ((List.range 64).filter (fun v =>
    before.suspectOf (before.vessel v) != after.suspectOf (after.vessel v))).length

/-! ## The operation -/

/-- The SUSPECT or RELEASE record (R127). -/
def State.writeSweep (s : State) (tag : Nat) (release : Bool) (r : SweepReport) : State :=
  s.write tag (.sweep release r)

/-- One BATCH_SUSPECT or BATCH_CLEAR record for each batch whose flag changed (R127). -/
def State.writeFlags (s : State) (tag : Nat) (bs : List Batch) : State :=
  bs.foldl (fun acc b => acc.write tag (.batchFlag b.suspect b (b.reason == .stillOpen))) s

/-- The operation of the six commands (R121). -/
def State.opMark (s : State) (tag : Nat) (release : Bool) (arg : MarkArg) : State :=
  let m := s.lin.marks release arg
  if m.result == .done then
    let (l1, passes) := m.lin.sweep release m.direct
    let l2 := l1.rederiveBatches
    let l3 := l2.rederiveVessels
    let changed := batchChanges l1.allBatches l2.allBatches
    let report : SweepReport :=
      { arg := arg, result := .done, marks := m.marks, directChanged := m.direct.isSome,
        blendFlags := blendChanges s.lin.blends l1.blends, passes := passes,
        vessels := vesselChanges s.lin l3, batches := changed.length, farms := l3.farms.length }
    ((s.setLin l3).writeSweep tag release report).writeFlags tag changed
  else s.writeSweep tag release { arg := arg, result := m.result }

end Sys2Proof.Machine
end

