-- ==== Sys2Proof/Machine/Batch.lean ====
section
/-! DEFINITION. The operations on fillers and holds: BATCH_OPEN, BATCH_CLOSE, IDLE_CLOSE, CARTON and
DISPATCH entries (R101, R111, R114 to R116), HOLD_RELEASE (R139), and GAP (R161). -/

namespace Sys2Proof.Machine

open Sys2Proof

/-! ## Opening and closing -/

/-- The operation of a BATCH_OPEN entry (R101). -/
def State.opBatchOpen (s : State) (tag : Nat) (command : Bool) (f product cat : Nat) : State :=
  match s.lin.fillerVessel f, catOfByte cat with
  | some v, some declared =>
    if (s.lin.filler f).state == .cleaning then
      s.write tag (.batchOpenRefused .busy f product cat)
    else
      s.openBatch f (s.lin.vessel v) product declared (if command then .command else .telegram) tag
  | _, _ => s.write tag (.batchOpenRefused .badArgument f product cat)

/-- The operation of a BATCH_CLOSE entry (R111). -/
def State.opBatchClose (s : State) (tag f : Nat) : State :=
  match s.lin.fillerVessel f with
  | none => s.write tag (.batchCloseRefused .badArgument f)
  | some _ =>
    if (s.lin.filler f).state == .batchOpen then s.closeBatch f .telegram tag none .idle
    else s.write tag (.batchCloseRefused .busy f)

/-- An IDLE_CLOSE entry still concerns the filler's open batch (R114). -/
def Filler.idleCloseDue (x : Filler) (serial : Nat) (expiry : TimeStamp) : Bool :=
  match x.openBatch with
  | none => false
  | some b => b.serial == serial && x.lastFlow.le expiry

/-- The operation of an IDLE_CLOSE entry (R114). -/
def State.opIdleClose (s : State) (tag f serial : Nat) (expiry : TimeStamp) : State :=
  if (s.lin.filler f).idleCloseDue serial expiry then
    s.closeBatch f .idle tag (some expiry) .idle
  else s

/-! ## Cartons (R115) -/

/-- The forward step of a carton serial, or none for a backward step. -/
def cartonDelta (last serial : Nat) : Option Nat :=
  let delta := (serial + 2 ^ 32 - last) % 2 ^ 32
  if delta < 2 ^ 31 then some delta else none

/-- What a carton serial does to the open batch of a filler. -/
def Filler.countCartons (x : Filler) (serial : Nat) (b : Batch) : Batch :=
  if x.seen then
    match cartonDelta x.lastCarton serial with
    | none => b
    | some d => { b with produced := grow32 b.produced d }
  else if b.firstSerial.isNone then { b with firstSerial := some ((serial + 1) % 2 ^ 32) }
  else b

/-- The operation of a CARTON entry (R115). -/
def State.opCarton (s : State) (f serial : Nat) : State :=
  match s.lin.fillerVessel f with
  | none => s
  | some _ =>
    let x := s.lin.filler f
    let y := x.modifyOpen (x.countCartons serial)
    s.setLin (s.lin.setFiller f { y with lastCarton := serial, seen := true })

/-! ## Dispatch (R116) -/

/-- The number of a packed decimal code, or none where a half-byte is above 9 (R105, R116). -/
def codeOfBytes (l : List Byte) : Option Nat :=
  l.foldl
    (fun acc b =>
      match acc with
      | none => none
      | some n =>
        let hi := b.toNat / 16
        let lo := b.toNat % 16
        if 9 < hi || 9 < lo then none else some (n * 100 + hi * 10 + lo))
    (some 0)

/-- The batch a code resolves to, with its filler: fillers 0 to 7, each ring newest to oldest. -/
def Lineage.findCode (l : Lineage) (code : Nat) : Option (Nat × Batch) :=
  (List.range 8).findSome? (fun f =>
    ((l.filler f).ring.reverse.find? (fun b => b.code == code)).map (fun b => (f, b)))

/-- The batch a received code resolves to; the indefinite code resolves to none. -/
def Lineage.resolveCode (l : Lineage) (code : List Byte) : Option (Nat × Batch) :=
  match codeOfBytes code with
  | none => none
  | some n => if n == Config.indefiniteCode then none else l.findCode n

/-- A batch of a ring replaced by serial. -/
def Filler.updBatch (x : Filler) (serial : Nat) (g : Batch → Batch) : Filler :=
  { x with ring := x.ring.map (fun b => if b.serial == serial then g b else b) }

/-- A dispatch that resolved: the count, the record and the conditions. -/
def State.dispatchResolved (s : State) (tag : Nat) (code : List Byte) (count note f : Nat)
    (b : Batch) : State :=
  let total := grow32 b.dispatched count
  let s1 := s.setLin (s.lin.setFiller f
    ((s.lin.filler f).updBatch b.serial (fun x => { x with dispatched := total })))
  let s2 := s1.write tag (.dispatched code count note b.serial f b.produced total)
  let s3 :=
    if b.produced < total then s2.raise tag none (.dispatchExcess b.serial b.produced total) else s2
  if b.suspect then s3.raise tag none (.dispatchSuspect b.serial note) else s3

/-- The operation of a DISPATCH entry (R116). -/
def State.opDispatch (s : State) (tag : Nat) (code : List Byte) (count note : Nat) : State :=
  match s.lin.resolveCode code with
  | some (f, b) => s.dispatchResolved tag code count note f b
  | none =>
    (s.write tag (.dispatchUnresolved code count note)).raise tag none
      (.dispatchUnresolved code note)

/-! ## HOLD_RELEASE (R139) -/

/-- The holds an argument names: a filler, 0xFE for all eight, 0xFD for the dispatch hold. -/
def holdsNamed (arg : Nat) : Option (List Nat) :=
  if arg ≤ 7 then some [arg]
  else if arg == 0xFE then some (List.range 8)
  else if arg == 0xFD then some [8]
  else none

/-- The latch sets of a list of holds emptied. -/
def HoldUnit.unlatch (h : HoldUnit) (holds : List Nat) : HoldUnit :=
  holds.foldl (fun acc i => { acc with latches := vset acc.latches i 0 }) h

/-- The operation of HOLD_RELEASE, with the holds that its evaluation writes a RELEASE record for. -/
def State.opHoldRelease (s : State) (tag arg : Nat) : State × List Nat :=
  match holdsNamed arg with
  | some holds => (s.setHold (s.hold.unlatch holds), holds)
  | none =>
    (s.write tag (.hold
      { hold := arg, action := .release, result := .badArgument, before := {}, after := {},
        batch := none }), [])

/-! ## GAP (R161) -/

/-- The configured vessels. -/
def Lineage.configured (l : Lineage) : List Nat :=
  (List.range 64).filter (fun v => (l.vessel v).kind != .unconfigured)

/-- The operation of a GAP entry (R161). -/
def State.opGap (s : State) (tag count : Nat) : State :=
  (s.setLin (s.lin.setUncertainAll s.lin.configured)).raise tag none (.gap count)

end Sys2Proof.Machine
end

