-- ==== Sys2Proof/Machine/Queue.lean ====
section
/-! DEFINITION. The Event Queue: offers, combining, refusal and GAP (R155 to R157), the taking of the
oldest entry (R159), and the pending idle closes it lets in (R158). -/

namespace Sys2Proof.Machine

open Sys2Proof

/-! ## Entries -/

/-- An entry is the GAP entry. -/
def Entry.isGap (e : Entry) : Bool :=
  match e.val with
  | .gap _ => true
  | _ => false

/-- METER and CARTON are the combinable kinds (R155). -/
def EntryVal.combinable : EntryVal → Bool
  | .meter _ _ => true
  | .carton _ _ => true
  | _ => false

/-- Two readings of one object (R156). -/
def EntryVal.sameReading : EntryVal → EntryVal → Bool
  | .meter m _, .meter n _ => m == n
  | .carton f _, .carton g _ => f == g
  | _, _ => false

/-- The ordinary entries standing (R155). -/
def ordinaryCount (q : List Entry) : Nat := (q.filter (fun e => !e.isGap)).length

/-! ## Combining (R156) -/

/-- Combining on a queue written youngest first: the candidate is the first entry of the item's
object, and only combinable entries may stand before it. -/
def combineYoungest (v : EntryVal) (arrival : TimeStamp) : List Entry → Option (List Entry)
  | [] => none
  | e :: t =>
    if v.sameReading e.val then some ({ e with val := v, arrival := arrival } :: t)
    else if e.val.combinable then (combineYoungest v arrival t).map (e :: ·)
    else none

/-- Combining on a queue, oldest first. -/
def combine (v : EntryVal) (arrival : TimeStamp) (q : List Entry) : Option (List Entry) :=
  if v.combinable then (combineYoungest v arrival q.reverse).map List.reverse else none

/-! ## Offers (R157) -/

/-- Appending an entry when an ordinary slot is free; the second part says whether it was accepted. -/
def State.append (s : State) (e : Entry) : State × Bool :=
  if ordinaryCount s.evq < Config.ordinaryMax then (s.setEvq (s.evq ++ [e]), true) else (s, false)

/-- The count of a GAP entry. -/
def Entry.gapCount (e : Entry) : Nat :=
  match e.val with
  | .gap n => n
  | _ => 0

/-- Gap handling: the GAP entry stands at the tail with its count one higher, or a new one with
count 1. Its arrival time is that of the first refusal it stands for (R155, R157). -/
def gapHandling (arrival : TimeStamp) (q : List Entry) : List Entry :=
  match q.find? Entry.isGap with
  | none => q ++ [{ val := .gap 1, arrival := arrival, tag := 0, command := false }]
  | some g => q.filter (fun e => !e.isGap) ++ [{ g with val := .gap (tick32 g.gapCount) }]

/-- The offer of a plant item (R156, R157). -/
def State.offerItem (s : State) (v : EntryVal) (arrival : TimeStamp) : State × Bool :=
  match combine v arrival s.evq with
  | some q => (s.setEvq q, true)
  | none =>
    let r := s.append { val := v, arrival := arrival, tag := 0, command := false }
    if r.2 then r
    else if v.combinable then
      (s.setDec { s.dec with readingsDropped := tick32 s.dec.readingsDropped }, false)
    else (s.setEvq (gapHandling arrival s.evq), false)

/-- The offer of a queued command (R176). -/
def State.offerCommand (s : State) (v : EntryVal) (tag : Nat) : State × Bool :=
  s.append { val := v, arrival := s.now, tag := tag, command := true }

/-- The offer of an IDLE_CLOSE entry; its arrival time is the clock at acceptance (R155). -/
def State.offerIdle (s : State) (f serial : Nat) (expiry : TimeStamp) : State × Bool :=
  s.append { val := .idleClose f serial expiry, arrival := s.now, tag := 0, command := false }

/-! ## Taking (R158, R159) -/

/-- A filler's pending idle close is offered and, when accepted, cleared (R158). -/
def State.offerPending (s : State) (f : Nat) : State :=
  match (s.lin.filler f).pendingIdle with
  | none => s
  | some (serial, expiry) =>
    let (s1, accepted) := s.offerIdle f serial expiry
    if accepted then
      s1.setLin (s1.lin.setFiller f { s1.lin.filler f with pendingIdle := none })
    else s1

/-- The oldest entry is taken; where that frees an ordinary slot, the fillers offer their pending
idle closes in ascending order. -/
def State.takeNext (s : State) : State :=
  match s.evq with
  | [] => s
  | e :: rest =>
    let s1 := (s.setEvq rest).setInFlight (some { toEntry := e, takenAt := s.now })
    if e.isGap then s1 else (List.range 8).foldl State.offerPending s1

/-- The engine may take an entry (R159). -/
def State.mayTake (s : State) : Bool :=
  !s.resetAsserted && s.inFlight.isNone && s.waiting.isEmpty && !s.evq.isEmpty &&
  Config.journalReserve ≤ s.jrn.free

/-- The engine takes the oldest entry if it may (R159). -/
def State.settle (s : State) : State := if s.mayTake then s.takeNext else s

/-- An entry that a step brought to the queue, or free space it made, lets the engine take. -/
def State.settled (r : State × Bool) : State × Bool := (r.1.settle, r.2)

end Sys2Proof.Machine
end

