-- ==== Sys2Proof/Machine/Decoder.lean ====
section
/-! DEFINITION. The Telegram Decoder: filter, match, items, overrides and the Valve Filter (R149 to
R154). -/

namespace Sys2Proof.Machine

open Sys2Proof

/-! ## Reading one item (R150 to R152) -/

/-- An entry matches a station and a kind (R150). -/
def matchesEntry (e : MatchEntry) (station kind : Nat) : Bool :=
  e.valid && e.base ≤ station && station ≤ e.limit && e.kind == kind

/-- The bytes of a field for item `i`; a field of width 0 is not extracted (R151, R152). -/
def fieldBytes (payload : List Byte) (stride i : Nat) (f : FieldSpec) : Option (List Byte) :=
  if f.width == 0 then some [] else bytesAt payload (f.off + i * stride) f.width

/-- The bytes of every field of item `i`, or none when one reaches beyond the payload. -/
def itemFields (e : MatchEntry) (payload : List Byte) (i : Nat) : Option (List (List Byte)) :=
  e.fields.mapM (fieldBytes payload e.stride i)

/-- The bytes of the k-th field. -/
def fieldAt (l : List (List Byte)) (k : Nat) : List Byte := l.getD k []

/-- The number in the k-th field. -/
def fieldNum (l : List (List Byte)) (k : Nat) : Nat := beNat (fieldAt l k)

/-- The number in an optional field, absent when it is not extracted. -/
def fieldOpt (l : List (List Byte)) (k : Nat) : Option Nat :=
  if (fieldAt l k).isEmpty then none else some (fieldNum l k)

/-- A manifest volume in centilitres (R151). -/
def toCentilitres (u : VolUnit) (n : Nat) : Nat :=
  match u with
  | .cl => n
  | .dl => n * 10
  | .litre => n * 100

/-- A collection time from seconds counted from day 0 (R151). -/
def timeOfSeconds (n : Nat) : TimeStamp := { day := n / 86400, sec := n % 86400, hund := 0 }

/-- The values of a MANIFEST item. -/
def manifestItem (unit : VolUnit) (bay : Nat) (l : List (List Byte)) : ManifestItem :=
  { bay := bay, tanker := fieldNum l 0, comp := fieldNum l 1, farm := fieldNum l 2,
    vol := toCentilitres unit (fieldNum l 3), cat := fieldNum l 4, sample := fieldOpt l 5,
    collTime := (fieldOpt l 6).map timeOfSeconds }

/-- The item of a class for an object, from its fields (R151). -/
def itemValue (c : ItemClass) (unit : VolUnit) (obj : Nat) (l : List (List Byte)) : EntryVal :=
  match c with
  | .meter => .meter obj (fieldNum l 0)
  | .valve => .valve obj (BitVec.ofNat 16 (fieldNum l 0))
  | .manifest => .manifest (manifestItem unit obj l)
  | .compSelect => .compSelect obj (fieldNum l 0) (fieldNum l 1)
  | .compDone => .compDone obj
  | .compReject => .compReject obj (fieldNum l 0) (fieldNum l 1)
  | .cipStart => .cipStart obj
  | .cipEnd => .cipEnd obj
  | .batchOpen => .batchOpen obj (fieldNum l 0) (fieldNum l 1)
  | .batchClose => .batchClose obj
  | .carton => .carton obj (fieldNum l 0)
  | .dispatch => .dispatch (fieldAt l 0) (fieldNum l 1) (fieldNum l 2)

/-! ## Valve items (R153, R154) -/

/-- One override slot applied to a value (R153). -/
def applyOverride (cluster : Nat) (v : Word16) (o : Override) : Word16 :=
  if o.enable && o.cluster == cluster then (v &&& ~~~o.mask) ||| (o.forced &&& o.mask) else v

/-- The value after every enabled slot that names the cluster, in ascending slot order (R153). -/
def Decoder.overridden (d : Decoder) (cluster : Nat) (v : Word16) : Word16 :=
  d.overrides.toList.foldl (applyOverride cluster) v

/-- The Valve Filter's entry for a cluster (R154). -/
def Decoder.lastValve (d : Decoder) (cluster : Nat) : Option Word16 :=
  vget d.valveFilter cluster none

/-- The filter takes an accepted value (R154). -/
def Decoder.recordValve (d : Decoder) (cluster : Nat) (v : Word16) : Decoder :=
  { d with valveFilter := vset d.valveFilter cluster (some v) }

/-! ## Offering (R152) -/

/-- An item that reaches the queue as an offer is counted (R152). -/
def State.countOffer (s : State) : State :=
  s.setDec { s.dec with itemsOffered := tick32 s.dec.itemsOffered }

/-- A VALVE item through overrides and filter to the queue (R153, R154). -/
def State.offerValve (s : State) (cluster : Nat) (v : Word16) (arrival : TimeStamp) : State :=
  let forced := s.dec.overridden cluster v
  if s.dec.lastValve cluster == some forced then s
  else
    let (s1, accepted) := s.countOffer.offerItem (.valve cluster forced) arrival
    (if accepted then s1.setDec (s1.dec.recordValve cluster forced) else s1).settle

/-- One item offered. -/
def State.offerDecoded (s : State) (v : EntryVal) (arrival : TimeStamp) : State :=
  match v with
  | .valve c x => s.offerValve c x arrival
  | _ => (s.countOffer.offerItem v arrival).1.settle

/-- A telegram too short for a field is counted (R149, R152). -/
def State.countShort (s : State) : State :=
  s.setDec { s.dec with shortTelegrams := tick32 s.dec.shortTelegrams }

/-- Item `i` of a frame: read and offered, or short. -/
def State.decodeItem (e : MatchEntry) (payload : List Byte) (arrival : TimeStamp) (s : State)
    (i : Nat) : State :=
  match itemFields e payload i with
  | none => s.countShort
  | some l => s.offerDecoded (itemValue e.cls e.volUnit (e.objBase + i) l) arrival

/-- The lowest-indexed entry that matches (R150). -/
def Decoder.findMatch (d : Decoder) (station kind : Nat) : Option MatchEntry :=
  d.matchTable.toList.find? (fun e => matchesEntry e station kind)

/-- The items of a frame that matched an entry, in item order (R152). -/
def State.decodeMatched (s : State) (e : MatchEntry) (payload : List Byte) : State :=
  let s1 := s.setDec { s.dec with framesDecoded := tick32 s.dec.framesDecoded }
  (List.range e.count).foldl (State.decodeItem e payload s1.now) s1

/-- The decoding of a frame that was placed in a forwarding buffer, or discarded for a DOWN link
(R149). -/
def State.decodeFrame (s : State) (f : Frame) : State :=
  let d := s.dec
  if d.filter.etherType == 0 || Frame.etherType f != d.filter.etherType then s
  else
    let payload := Frame.payload f
    match numAt payload d.filter.stationOff d.filter.stationWidth,
        numAt payload d.filter.kindOff 1 with
    | some station, some kind =>
      match d.findMatch station kind with
      | none => s.setDec { s.dec with unmatched := tick32 s.dec.unmatched }
      | some e => s.decodeMatched e payload
    | _, _ => s.countShort

end Sys2Proof.Machine
end

