-- ==== Sys2Proof/Machine/Engine.lean ====
section
/-! DEFINITION. Engine operations (R159, R160): the entry in flight is carried out by the rule of its
kind, the hold evaluation ends the operation (R137), its records are published (R164), and the
engine takes the next entry. One meaning for each ..._ENTRY row. -/

namespace Sys2Proof.Machine

open Sys2Proof

/-- What an operation leaves before its hold evaluation: the state, the holds HOLD_RELEASE named,
and the records its rule places after the evaluation (R44, R137, R164). -/
structure OpEnd where
  st : State
  released : List Nat := []
  after : List Payload := []
  deriving DecidableEq, Repr

/-- The end of an operation: evaluation, the records behind it, publication, and the next entry. -/
def OpEnd.finish (o : OpEnd) (tag : Nat) : State :=
  let s1 := o.st.evaluate tag .evaluate o.released
  let s2 := o.after.foldl (fun s p => s.write tag p) s1
  ((s2.setJrn s2.jrn.publish).setInFlight none).settle

/-- The entry in flight, once the engine has taken one if it may. -/
def State.current (s : State) : Option TakenEntry :=
  if s.resetAsserted then none else s.settle.inFlight

/-- Carrying out the entry in flight where `op` is the rule of its kind. In every other place the
row changes nothing (log 3). -/
def State.atEntry (s : State) (op : TakenEntry → State → Option OpEnd) : State :=
  match s.current with
  | none => s
  | some e =>
    match op e s.settle with
    | none => s
    | some o => o.finish e.tag

/-! ## The operations, as the rows name them -/

def execMeterEntry (s : State) : Host.Outcome State Fault Refusal :=
  .next (s.atEntry (fun e s =>
    match e.val with
    | .meter m t => some { st := s.opMeter e.tag m t }
    | _ => none))

def execValveEntry (s : State) : Host.Outcome State Fault Refusal :=
  .next (s.atEntry (fun e s =>
    match e.val with
    | .valve c v => some { st := s.opValve e.tag c v }
    | _ => none))

def execManifestEntry (s : State) : Host.Outcome State Fault Refusal :=
  .next (s.atEntry (fun e s =>
    match e.val with
    | .manifest i => some { st := s.opManifest e.tag e.takenAt i }
    | _ => none))

def execCompSelectEntry (s : State) : Host.Outcome State Fault Refusal :=
  .next (s.atEntry (fun e s =>
    match e.val with
    | .compSelect b t c => some { st := s.opCompSelect e.tag b t c }
    | _ => none))

def execCompDoneEntry (s : State) : Host.Outcome State Fault Refusal :=
  .next (s.atEntry (fun e s =>
    match e.val with
    | .compDone b => some { st := s.opCompDone e.tag b }
    | _ => none))

def execCompRejectEntry (s : State) : Host.Outcome State Fault Refusal :=
  .next (s.atEntry (fun e s =>
    match e.val with
    | .compReject b t c => some { st := s.opCompReject e.tag b t c }
    | _ => none))

def execCipStartEntry (s : State) : Host.Outcome State Fault Refusal :=
  .next (s.atEntry (fun e s =>
    match e.val with
    | .cipStart v => some { st := s.opCipStart e.tag v }
    | _ => none))

def execCipEndEntry (s : State) : Host.Outcome State Fault Refusal :=
  .next (s.atEntry (fun e s =>
    match e.val with
    | .cipEnd v => some { st := s.opCipEnd e.tag v }
    | _ => none))

def execBatchOpenEntry (s : State) : Host.Outcome State Fault Refusal :=
  .next (s.atEntry (fun e s =>
    match e.val with
    | .batchOpen f p c => some { st := s.opBatchOpen e.tag e.command f p c }
    | _ => none))

def execBatchCloseEntry (s : State) : Host.Outcome State Fault Refusal :=
  .next (s.atEntry (fun e s =>
    match e.val with
    | .batchClose f => some { st := s.opBatchClose e.tag f }
    | _ => none))

def execCartonEntry (s : State) : Host.Outcome State Fault Refusal :=
  .next (s.atEntry (fun e s =>
    match e.val with
    | .carton f n => some { st := s.opCarton f n }
    | _ => none))

def execDispatchEntry (s : State) : Host.Outcome State Fault Refusal :=
  .next (s.atEntry (fun e s =>
    match e.val with
    | .dispatch c n k => some { st := s.opDispatch e.tag c n k }
    | _ => none))

def execIdleCloseEntry (s : State) : Host.Outcome State Fault Refusal :=
  .next (s.atEntry (fun e s =>
    match e.val with
    | .idleClose f n x => some { st := s.opIdleClose e.tag f n x }
    | _ => none))

def execGapEntry (s : State) : Host.Outcome State Fault Refusal :=
  .next (s.atEntry (fun e s =>
    match e.val with
    | .gap n => some { st := s.opGap e.tag n }
    | _ => none))

def execSwitchBankEntry (s : State) : Host.Outcome State Fault Refusal :=
  .next (s.atEntry (fun e s =>
    match e.val with
    | .switchBank => some { st := s.opSwitchBank e.tag }
    | _ => none))

def execVesselWriteEntry (s : State) : Host.Outcome State Fault Refusal :=
  .next (s.atEntry (fun e s =>
    match e.val with
    | .vesselWrite w => some { st := s.opVesselWrite e.tag w }
    | _ => none))

/-- The MANUAL record follows the hold evaluation (R44, R137). -/
def execManualTransferEntry (s : State) : Host.Outcome State Fault Refusal :=
  .next (s.atEntry (fun e s =>
    match e.val with
    | .manualTransfer a b v =>
      let r := s.opManual e.tag a b v
      some { st := r.1, after := r.2 }
    | _ => none))

def execSuspectKeyEntry (s : State) : Host.Outcome State Fault Refusal :=
  .next (s.atEntry (fun e s =>
    match e.val with
    | .suspectKey k => some { st := s.opMark e.tag false (.key k) }
    | _ => none))

def execSuspectSampleEntry (s : State) : Host.Outcome State Fault Refusal :=
  .next (s.atEntry (fun e s =>
    match e.val with
    | .suspectSample n => some { st := s.opMark e.tag false (.sample n) }
    | _ => none))

def execSuspectFarmEntry (s : State) : Host.Outcome State Fault Refusal :=
  .next (s.atEntry (fun e s =>
    match e.val with
    | .suspectFarm n => some { st := s.opMark e.tag false (.farm n) }
    | _ => none))

def execReleaseKeyEntry (s : State) : Host.Outcome State Fault Refusal :=
  .next (s.atEntry (fun e s =>
    match e.val with
    | .releaseKey k => some { st := s.opMark e.tag true (.key k) }
    | _ => none))

def execReleaseSampleEntry (s : State) : Host.Outcome State Fault Refusal :=
  .next (s.atEntry (fun e s =>
    match e.val with
    | .releaseSample n => some { st := s.opMark e.tag true (.sample n) }
    | _ => none))

def execReleaseFarmEntry (s : State) : Host.Outcome State Fault Refusal :=
  .next (s.atEntry (fun e s =>
    match e.val with
    | .releaseFarm n => some { st := s.opMark e.tag true (.farm n) }
    | _ => none))

def execHoldReleaseEntry (s : State) : Host.Outcome State Fault Refusal :=
  .next (s.atEntry (fun e s =>
    match e.val with
    | .holdRelease a =>
      let r := s.opHoldRelease e.tag a
      some { st := r.1, released := r.2 }
    | _ => none))

end Sys2Proof.Machine
end

