-- ==== Sys2Proof/Machine/Wire.lean ====
section
/-! DEFINITION. What the part sends: the elements of section 12.1, journal records (R185), replies
(R183, and the reading rules), code notices (R184) and the frames that carry them. -/

namespace Sys2Proof.Machine

open Sys2Proof

/-! ## Elements (section 12.1) -/

/-- A number in `w` big-endian bytes. -/
def be : Nat → Nat → List Byte
  | 0, _ => []
  | w + 1, n => BitVec.ofNat 8 (n / 256 ^ w) :: be w n

def encKey : Key → List Byte
  | .unknown => be 4 0
  | .coll n => be 4 (2 ^ 28 + n % 2 ^ 28)
  | .blend n => be 4 (2 * 2 ^ 28 + n % 2 ^ 28)

def encRawKey (k : RawKey) : List Byte := be 4 (k.kind % 16 * 2 ^ 28 + k.serial % 2 ^ 28)

def encShare (x : Share) : List Byte := encKey x.key ++ be 4 x.vol

def encCompShare (x : CompShare) : List Byte :=
  encKey x.key ++ be 4 x.remaining ++ be 4 x.manifest

def encTime (t : TimeStamp) : List Byte := be 3 t.day ++ be 3 (t.sec * 100 + t.hund)

/-- The absent form of a time stamp. -/
def encNoTime : List Byte := be 3 0xFFFFFF ++ be 3 0

def encCat : Cat → List Byte
  | none => [0xFF]
  | some c => be 1 c.val

/-- An index, or 0xFF for none. -/
def encIndex : Option Nat → List Byte
  | none => [0xFF]
  | some n => be 1 n

/-- A batch serial, or 0 for none. -/
def encSerial (n : Option Nat) : List Byte := be 4 (n.getD 0)

def encPort : Port → List Byte
  | .a => [0]
  | .b => [1]

def encBank : Bank → List Byte
  | .a => [0]
  | .b => [1]

def encFlag (b : Bool) : List Byte := [if b then 1 else 0]

/-- Flags packed into one byte, bit 0 first. -/
def packFlags : List Bool → Nat
  | [] => 0
  | b :: t => (if b then 1 else 0) + 2 * packFlags t

def encFlags (l : List Bool) : List Byte := be 1 (packFlags l)

/-- An optional number: a presence byte, then its bytes, 0 when absent. -/
def encOpt (w : Nat) : Option Nat → List Byte
  | none => 0 :: be w 0
  | some n => 1 :: be w n

/-- An optional time stamp: a presence byte, then the stamp or its absent form. -/
def encOptTime : Option TimeStamp → List Byte
  | none => 0 :: encNoTime
  | some t => 1 :: encTime t

/-- A count byte and the elements. -/
def encList {α : Type} (f : α → List Byte) (l : List α) : List Byte :=
  be 1 l.length ++ l.flatMap f

/-- An 18-digit code as nine packed bytes. -/
def encCode (n : Nat) : List Byte :=
  (List.range 9).map (fun i =>
    let pair := n / 100 ^ (8 - i) % 100
    BitVec.ofNat 8 (pair / 10 * 16 + pair % 10))

def encSet (c : CondSet) : List Byte := be 4 c.toNat

def encEngineState : EngineState → List Byte
  | .idle => [0]
  | .running => [1]
  | .stalled => [2]
  | .clearing => [3]

/-! ## Choices, by their places in the lists that name them first (R185) -/

def statusCode : Status → Nat
  | .done => 0
  | .queued => 1
  | .queueFull => 2
  | .badArgument => 3
  | .notPermitted => 4
  | .tableInvalid => 5
  | .activeBank => 6
  | .inUse => 7
  | .notResident => 8
  | .range => 9
  | .busy => 10
  | .tableFull => 11
  | .listFull => 12

def encStatus (s : Status) : List Byte := be 1 (statusCode s)

def encSlotTag : SlotTag → List Byte
  | .empty => [0]
  | .loaded => [1]
  | .discharging => [2]

def encSlotReason : SlotReason → List Byte
  | .done => [0]
  | .rejected => [1]
  | .cleaned => [2]

def encSegReason : SegReason → List Byte
  | .route => [0]
  | .switch => [1]
  | .limit => [2]

def encVesselAction : VesselAction → List Byte
  | .write => [0]
  | .cipStart => [1]
  | .cipEnd => [2]

def encHoldAction : HoldAction → List Byte
  | .evaluate => [0]
  | .release => [1]
  | .clear => [2]

def encCause : OpenCause → List Byte
  | .telegram => [0]
  | .command => [1]
  | .auto => [2]

def encCloseReason : CloseReason → List Byte
  | .telegram => [0]
  | .idle => [1]
  | .cip => [2]
  | .superseded => [3]
  | .clear => [4]
  | .stillOpen => [5]

def encTarget : HoldTarget → List Byte
  | .noHold => [0]
  | .namedFiller => [1]
  | .allFillers => [2]
  | .dispatch => [3]

/-- The number of a cause of COMPARTMENT_UNKNOWN. No rule lists all four: the model numbers them as they
first appear in R63, R68 and R70 (log 19). The number is sent in 4 bytes (`encCondVals`). -/
def unknownCauseCode : UnknownCause → Nat
  | .noBay => 0
  | .invalidField => 1
  | .noMatch => 2
  | .notDischarging => 3

def encSource : PinSource → List Byte
  | .none => [0]
  | .fillerHold => [1]
  | .dispatchHold => [2]
  | .anyHold => [3]
  | .engineStalled => [4]
  | .forcedOn => [5]

def encVesselKind : VesselKind → List Byte
  | .unconfigured => [0]
  | .store => [1]
  | .bay => [2]
  | .filler => [3]

def encVesselState : VesselState → List Byte
  | .unseeded => [0]
  | .holding => [1]
  | .cleaning => [2]

def encFillerState : FillerState → List Byte
  | .idle => [0]
  | .batchOpen => [1]
  | .cleaning => [2]

/-! ## Parts of records -/

/-- Source, destination, bank and entry of a route, each 0xFF for NONE (R88, section 12.4). -/
def encRouteEnds : Option Route → List Byte
  | none => [0xFF, 0xFF, 0xFF, 0xFF]
  | some r => be 1 r.src ++ be 1 r.dst ++ encBank r.bank ++ be 1 r.entry

def encSegFlags (f : SegFlags) : List Byte :=
  encFlags [f.unrouted, f.cleaning, f.sameVessel, f.jump, f.capped]

/-- The values a CONDITION record carries for its kind, 4 bytes each, a code 9 (section 8.2). The
bay of an intake condition is the item's bay index, that of INTAKE_EXCESS the BAY vessel (log 19).
The cause of COMPARTMENT_UNKNOWN, one byte as a choice among names and a 4-byte number as a CONDITION
value by R185, is sent as the 4-byte number, the model's choice (log 19).
A volume of one reading that outgrows its 4 bytes shows its low bytes, the model's choice (log 34). -/
def encCondVals : CondVals → List Byte
  | .overdraw s d v e => be 4 s ++ be 4 d ++ be 4 v ++ be 4 e
  | .intakeExcess b k t c d v e =>
    be 4 b ++ be 4 k ++ be 4 t ++ be 4 c ++ be 4 d ++ be 4 v ++ be 4 e
  | .overfill d v => be 4 d ++ be 4 v
  | .unrouted m v => be 4 m ++ be 4 v
  | .meterStep m o n => be 4 m ++ be 4 o ++ be 4 n
  | .meterJump m v => be 4 m ++ be 4 v
  | .gap n => be 4 n
  | .truncated v n => be 4 v ++ be 4 n
  | .collTableFull w => be 4 w.bay ++ be 4 w.tanker ++ be 4 w.comp ++ be 4 w.farm
  | .bayRingFull w => be 4 w.bay ++ be 4 w.tanker ++ be 4 w.comp ++ be 4 w.farm
  | .compartmentFull w k => be 4 w.bay ++ be 4 k ++ be 4 w.tanker ++ be 4 w.comp ++ be 4 w.farm
  | .compartmentUnknown w c =>
    be 4 w.bay ++ be 4 w.tanker ++ be 4 w.comp ++ be 4 w.farm ++ be 4 (unknownCauseCode c)
  | .noBatch f n => be 4 f ++ be 4 n
  | .codeExhausted f n => be 4 f ++ be 4 n
  | .codeUnsent f n p => be 4 f ++ be 4 n ++ be 3 0 ++ encPort p
  | .categoryChange d a b => be 4 d ++ be 4 a.val ++ be 4 b.val
  | .cleaningFlow m s d v => be 4 m ++ be 4 s ++ be 4 d ++ be 4 v
  | .dispatchSuspect n k => be 4 n ++ be 4 k
  | .dispatchUnresolved c k => c ++ be 4 k
  | .dispatchExcess n p d => be 4 n ++ be 4 p ++ be 4 d

/-- The farm, tanker, compartment and the rest of a full collection record are absent in an opaque
one; their bytes read 0 and times take the absent form (R49, R57). -/
def CollRec.key (r : CollRec) : Key := .coll r.serial

def BlendRec.key (r : BlendRec) : Key := .blend r.serial

/-- A COLLECTION payload, in the order of R47. -/
def encCollection (r : CollRec) : List Byte :=
  match r.info with
  | none => encKey r.key ++ encCat (some r.cat) ++ encFlags [r.mark, true] ++ be 2 r.refs
  | some i =>
    encKey r.key ++ be 4 i.farm ++ be 2 i.tanker ++ be 1 i.comp ++ encCat (some r.cat) ++
    be 4 i.manifestVol ++ encOpt 4 i.sample ++ encOptTime i.collTime ++ be 1 i.bay ++
    encTime i.intakeTime ++ encFlags [r.mark, false] ++ be 2 r.refs

/-- A BLEND payload, in the order of R40; an opaque record has the absent forms. -/
def encBlend (r : BlendRec) : List Byte :=
  let created :=
    match r.info with
    | none => encNoTime ++ [0xFF]
    | some i => encTime i.created ++ be 1 i.vessel
  encKey r.key ++ created ++ encCat (some r.cat) ++ encList encShare r.members ++
  be 4 (total r.members) ++ encFlags [r.info.isNone, r.direct, r.derived] ++ be 2 r.refs

/-- The fields of a batch that opening writes, in the order of R102, step 4. The packed flags stand
where the first of them, the indefinite flag, is listed: the model's choice (log 17). -/
def encBatchOpened (b : Batch) (evicted : Option Nat) : List Byte :=
  encStatus .done ++ be 4 b.serial ++ encCode b.code ++ be 1 b.filler ++ be 1 b.number ++
  be 2 b.product ++ encCat b.declared ++ encTime b.openTime ++ encCause b.cause ++
  encFlags [b.indefinite, b.uncertain, b.mismatch, b.suspect, b.unsent] ++
  encList encShare b.list ++ be 4 b.volume ++ encCat b.cat ++ be 4 b.produced ++
  be 4 b.dispatched ++ encOpt 4 b.firstSerial ++ encSerial evicted

/-- A BATCH_CLOSE payload, in the order of R110, then the expiry time (R114), which the model sends as an
optional field in the record of every close, absent but for reason IDLE (log 17). -/
def encBatchClosed (b : Batch) (expiry : Option TimeStamp) : List Byte :=
  encStatus .done ++ be 4 b.serial ++ encCode b.code ++ be 1 b.filler ++ be 1 b.number ++
  be 2 b.product ++ encCat b.declared ++ encTime b.openTime ++
  encTime (b.closeTime.getD ⟨0, 0, 0⟩) ++ encCloseReason b.reason ++ encCause b.cause ++
  encList encShare b.list ++ be 4 b.volume ++ encCat b.cat ++ encOpt 4 b.firstSerial ++
  be 4 b.produced ++ be 4 b.dispatched ++
  encFlags [b.uncertain, b.suspect, b.mismatch, b.indefinite, b.unsent] ++ encOptTime expiry

def encHoldView (before after : HoldView) : List Byte :=
  encFlags
    [before.asserted, after.asserted, before.causes.suspect, before.causes.uncertain,
     before.causes.mismatch, after.causes.suspect, after.causes.uncertain,
     after.causes.mismatch] ++
  encSet before.latch ++ encSet after.latch

/-- The command form and argument of a SUSPECT or RELEASE record. -/
def encMarkArg : MarkArg → List Byte
  | .key k => 0 :: encRawKey k
  | .sample n => 1 :: be 4 n
  | .farm n => 2 :: be 4 n

/-! ## Journal records (R185) -/

/-- The kind number of a record. -/
def Payload.kindCode : Payload → Nat
  | .collection _ => 1
  | .compartment _ => 2
  | .blend _ => 3
  | .truncation .. => 4
  | .segment _ => 5
  | .manual .. => 6
  | .vessel _ => 7
  | .batchOpenRefused .. => 8
  | .batchOpened .. => 8
  | .batchCloseRefused .. => 9
  | .batchClosed .. => 9
  | .batchFlag suspect _ _ => if suspect then 10 else 11
  | .dispatched .. => 12
  | .dispatchUnresolved .. => 12
  | .condition _ => 13
  | .hold _ => 14
  | .sweep release _ => if release then 16 else 15
  | .engineClear .. => 17
  | .engineSwitch _ => 17
  | .engineClock .. => 17

/-- The payload bytes of a record. Log 17 names what R185 leaves open and the model chooses, among it
the flag of R127 for a changed direct mark, which every SUSPECT and RELEASE record carries here, the
markers of R44 packed as flags, and the 4 bytes of each count in a CLEAR_ENGINE record (R165). A tag that
a writing rule lists (R44, R127, R134, R138) stands in the envelope alone, while the time of R41 stands in
the TRUNCATION payload as well: the model's choice (log 17). -/
def Payload.bytes : Payload → List Byte
  | .collection r => encCollection r
  | .compartment r =>
    be 1 r.vessel ++ be 1 r.bay ++ be 1 r.slot ++ be 2 r.tanker ++ be 1 r.comp ++
    encTime r.openTime ++ be 4 r.manifest ++ be 6 r.drawn ++ be 4 r.remaining ++
    encSlotReason r.reason ++ encList encCompShare r.shares
  | .blend r => encBlend r
  | .truncation v t l => be 1 v ++ encTime t ++ encList encShare l
  | .segment r =>
    be 1 r.meter ++ encRouteEnds r.route ++ encTime r.start ++ encTime r.stop ++ be 6 r.vol ++
    encSegFlags r.flags ++ encSegReason r.reason
  | .manual result src dst vol done =>
    encStatus result ++ be 1 src ++ be 1 dst ++ be 4 vol ++
    (match done with
     | none => []
     | some d =>
       encList encShare d.portions ++ be 4 d.discarded ++
       encFlags [d.stepA, d.stepB, d.truncated])
  | .vessel r =>
    be 1 r.vessel ++ encVesselAction r.action ++ encStatus r.result ++ encCat r.cat ++
    encFlags [r.uncertain] ++ be 4 r.content ++ be 1 r.count ++ encList encShare r.list
  | .batchOpenRefused result f p c => encStatus result ++ be 1 f ++ be 2 p ++ be 1 c
  | .batchOpened b evicted => encBatchOpened b evicted
  | .batchCloseRefused result f => encStatus result ++ be 1 f
  | .batchClosed b expiry => encBatchClosed b expiry
  | .batchFlag _ b isOpen =>
    be 4 b.serial ++ encCode b.code ++ be 1 b.filler ++ encFlag isOpen ++ be 4 b.produced ++
    be 4 b.dispatched
  | .dispatched code count note serial f produced total =>
    code ++ be 2 count ++ be 4 note ++ be 4 serial ++ be 1 f ++ be 4 produced ++ be 4 total
  | .dispatchUnresolved code count note => code ++ be 2 count ++ be 4 note ++ [1]
  | .condition r =>
    be 1 r.vals.row ++ be 4 r.counter ++ encIndex r.filler ++ encTarget r.target ++
    encList (fun t => be 1 (holdByte t.1) ++ encFlag t.2) r.touched ++ encCondVals r.vals
  | .hold r =>
    be 1 r.hold ++ encHoldAction r.action ++ encStatus r.result ++ encHoldView r.before r.after ++
    (if r.hold == 0xFD then [] else encSerial r.batch)
  | .sweep _ r =>
    encMarkArg r.arg ++ encStatus r.result ++ be 4 r.marks ++ encFlag r.directChanged ++
    be 4 r.blendFlags ++ be 2 r.passes ++ be 4 r.vessels ++ be 4 r.batches ++ be 1 r.farms
  | .engineClear removed gap closed => 0 :: be 4 removed ++ be 4 gap ++ be 4 closed
  | .engineSwitch k => 1 :: encBank k
  | .engineClock before wasSet => 2 :: encTime before ++ encFlag wasSet

/-- A record as fetched: its envelope and payload (R185). -/
def JournalRec.bytes (r : JournalRec) : List Byte :=
  be 4 r.seq.toNat ++ encTime r.time ++ be 1 r.payload.kindCode ++ be 2 r.tag ++
  be 2 r.payload.bytes.length ++ r.payload.bytes

/-! ## The fetch reply (section 12.4) -/

/-- The whole records that fit, from the first on. -/
def fitRecords : Nat → List JournalRec → List JournalRec
  | _, [] => []
  | room, r :: t =>
    if r.bytes.length ≤ room then r :: fitRecords (room - r.bytes.length) t else []

/-- The sequences and the free space that every fetch and release reply carries. -/
def Journal.header (j : Journal) : List Byte :=
  be 4 j.oldest.toNat ++ be 4 j.published.toNat ++ be 2 j.free

/-- The records a fetch from the d-th unreleased record returns (R168). -/
def Journal.fetched (j : Journal) (d : Nat) : List JournalRec :=
  fitRecords Config.fetchBytes ((j.records.take j.publishedCount).drop d)

/-- The arguments of a fetch reply. -/
def State.fetchReply (s : State) (rs : List JournalRec) : List Byte :=
  s.jrn.header ++ encEngineState s.engine ++ be 1 rs.length ++ rs.flatMap JournalRec.bytes

/-! ## Readings (log 18 for what the rules leave open) -/

/-- The configuration fields of a kind, in the order of R2. -/
def Vessel.configBytes (x : Vessel) : List Byte :=
  match x.kind with
  | .unconfigured => []
  | .store => be 4 x.capacity
  | .bay => be 1 x.bayIndex ++ be 1 x.tolerance
  | .filler =>
    be 1 x.fillerIndex ++ be 1 x.fillerNumber ++ be 6 x.coderAddr ++ encPort x.coderPort ++
    be 2 x.idleTimeout ++ be 2 x.autoProduct

/-- The reply of READ_VESSEL (R20). -/
def Lineage.readVessel (l : Lineage) (v : Nat) : List Byte :=
  let x := l.vessel v
  let flags := encFlags [l.uncertainOf x, l.suspectOf x]
  encVesselKind x.kind ++ x.configBytes ++ encVesselState (l.vesselState x) ++
  (match x.kind with
   | .unconfigured => []
   | .store => be 4 (l.content x) ++ encCat x.cat ++ flags ++ encList encShare x.list
   | .bay =>
     be 4 (l.content x) ++ flags ++ be 1 (l.ring x.bayIndex).disch ++
     (l.ring x.bayIndex).slots.toList.flatMap (fun c => encSlotTag c.tag)
   | .filler =>
     encFillerState (l.filler x.fillerIndex).state ++
     encSerial ((l.openBatchOf x).map Batch.serial) ++ be 4 (l.content x) ++ encCat (l.catOf x) ++
     flags)

/-- The reply of READ_KEY for a resident collection at an entry index (R57). The packed flags stand
where the opaque flag is listed: the model's choice (log 18). -/
def readColl (index : Nat) (r : CollRec) : List Byte :=
  encKey r.key ++ be 2 index ++ encFlags [r.info.isNone, r.mark] ++
  (match r.info with
   | none =>
     be 4 0 ++ be 2 0 ++ be 1 0 ++ be 4 0 ++ encCat (some r.cat) ++ encOpt 4 none ++
     encOptTime none ++ be 1 0xFF ++ encNoTime
   | some i =>
     be 4 i.farm ++ be 2 i.tanker ++ be 1 i.comp ++ be 4 i.manifestVol ++ encCat (some r.cat) ++
     encOpt 4 i.sample ++ encOptTime i.collTime ++ be 1 i.bay ++ encTime i.intakeTime) ++
  be 2 r.refs

/-- The reply of READ_KEY for a resident blend at an entry index (R57), its packed flags at the opaque
flag's place as in `readColl` (log 18). -/
def readBlend (index : Nat) (r : BlendRec) : List Byte :=
  encKey r.key ++ be 2 index ++ encFlags [r.info.isNone, r.direct, r.derived] ++
  (match r.info with
   | none => encNoTime ++ [0xFF]
   | some i => encTime i.created ++ be 1 i.vessel) ++
  encCat (some r.cat) ++ be 4 (total r.members) ++ be 2 r.refs ++ encList encShare r.members

/-- The reply of READ_BATCH for one record (R117). The batch's five flags stand packed where the first
of them is listed, the serial-seen flag in a byte of its own: the model's choice (log 18). -/
def readBatchBytes (x : Filler) (b : Batch) : List Byte :=
  be 1 x.ring.length ++ encFillerState x.state ++ be 4 x.seq ++ be 4 x.lastCarton ++
  encFlag x.seen ++ encFlag x.timer.isSome ++
  be 4 b.serial ++ encCode b.code ++ be 1 b.filler ++ be 1 b.number ++ be 2 b.product ++
  encCat b.declared ++ encTime b.openTime ++ encCause b.cause ++
  encFlags [b.indefinite, b.unsent, b.uncertain, b.mismatch, b.suspect] ++
  encOpt 4 b.firstSerial ++ encList encShare b.list ++ be 4 b.volume ++ encCat b.cat ++
  be 4 b.produced ++ be 4 b.dispatched ++ encOptTime b.closeTime ++ encCloseReason b.reason

/-- One slot of a READ_BAY reply (R78). -/
def readSlot (tolerance : Nat) (c : Slot) : List Byte :=
  encSlotTag c.tag ++
  (if c.tag == .empty then []
   else
     be 2 c.tanker ++ be 1 c.comp ++ encTime c.openTime ++ be 4 c.manifestTotal ++ be 6 c.drawn ++
     be 4 c.remainingTotal ++ be 4 (c.limit tolerance) ++ encList encCompShare c.shares)

/-- The reply of READ_BAY (R78). -/
def Lineage.readBay (l : Lineage) (v : Nat) : List Byte :=
  let x := l.vessel v
  let r := l.ring x.bayIndex
  be 1 v ++ be 1 x.bayIndex ++ be 1 x.tolerance ++ encVesselState x.state ++ be 4 (l.content x) ++
  encFlags [x.uncertain, x.suspect] ++ be 1 r.fill ++ be 1 r.disch ++
  r.slots.toList.flatMap (readSlot x.tolerance)

/-- The reply of READ_METER (R95). The configured and the reference-valid flag stand packed ahead of
the width, the five segment flags in a byte of their own: the model's choice (log 18). -/
def Lineage.readMeter (l : Lineage) (m : Nat) : List Byte :=
  let x := l.meter m
  encFlags [x.configured, x.refValid] ++ be 1 x.width ++ be 2 x.num ++ be 2 x.den ++ be 4 x.jump ++
  be 4 x.ref ++ be 2 x.residue ++ encBank l.active ++
  (match x.route with
   | none => [0xFF, 0xFF, 0xFF, 0xFF]
   | some r => encBank r.bank ++ be 1 r.entry ++ be 1 r.src ++ be 1 r.dst) ++
  encTime x.seg.start ++ be 6 x.seg.vol ++ encSegFlags x.seg.flags

/-! ## STATUS (R144, R181) -/

def PortState.linkByte (p : PortState) : List Byte := [if p.linkUp then 0 else 1]

/-- The counters of a port and its reply reservations, which take 1 byte (log 18). -/
def PortState.statusBytes (p : PortState) : List Byte :=
  be 4 p.rxErrors ++ be 4 p.fwdSent ++ be 4 p.fwdDrops ++ be 4 p.linkLoss ++ be 1 p.reservations

def Decoder.statusBytes (d : Decoder) : List Byte :=
  be 4 d.framesDecoded ++ be 4 d.unmatched ++ be 4 d.shortTelegrams ++ be 4 d.itemsOffered ++
  be 4 d.readingsDropped

/-- The fillers with a pending idle close, in ascending index: the model's choice (log 18). -/
def Lineage.pendingFillers (l : Lineage) : List Nat :=
  (List.range 8).filter (fun f => (l.filler f).pendingIdle.isSome)

/-- The Event Queue group. An empty queue sends the arrival time as an optional field that is absent, the
entries standing take 1 byte, and the fillers with a pending idle close are sent as a list, a count byte
and their indices in ascending order: the model's choices (log 18). -/
def State.queueBytes (s : State) : List Byte :=
  be 1 (ordinaryCount s.evq) ++
  (match s.evq.find? Entry.isGap with
   | none => encFlag false ++ be 4 0
   | some g => encFlag true ++ be 4 g.gapCount) ++
  encOptTime (s.evq.head?.map Entry.arrival) ++ encList (be 1) s.lin.pendingFillers

/-- The engine group. The resident records take 2 bytes each, the model's choice (log 18). -/
def State.engineBytes (s : State) : List Byte :=
  encEngineState s.engine ++ encBank s.lin.active ++ be 4 s.lin.collNext ++ be 4 s.lin.blendNext ++
  be 4 s.lin.batchNext ++ be 2 s.lin.colls.length ++ be 2 s.lin.blends.length ++
  encList (be 4) s.lin.farms

def Filler.statusBytes (x : Filler) : List Byte :=
  encFillerState x.state ++ encSerial (x.openBatch.map Batch.serial) ++ be 4 x.seq

def Journal.statusBytes (j : Journal) : List Byte :=
  be 4 j.oldest.toNat ++ be 4 j.published.toNat ++ be 4 j.written.toNat ++ be 2 j.free

/-- A hold in STATUS (R144). Asserted and the causes stand packed ahead of the latch set, the causes
clear for the dispatch hold: the model's choice (log 18). -/
def HoldView.statusBytes (h : HoldView) : List Byte :=
  encFlags [h.asserted, h.causes.suspect, h.causes.uncertain, h.causes.mismatch] ++ encSet h.latch

/-- A pin: its Output Map entry and whether it drives (R144). The filler byte is the one received,
also where the source is not FILLER_HOLD (log 38); polarity and driving take a byte each, the model's
choice (log 18). -/
def State.pinBytes (s : State) (i : Nat) : List Byte :=
  let o := vget s.hold.outMap i {}
  encSource o.source ++ be 1 o.filler ++ encFlag o.activeLow ++ encFlag (s.sourceActive o)

/-- The contents of R144. Each row's report and each content enable takes a byte of its own, the model's
choice (log 18). -/
def State.holdBytes (s : State) : List Byte :=
  s.hold.counters.toList.flatMap (be 4) ++
  s.hold.policy.toList.flatMap (fun r => encFlag r.report ++ encTarget r.target) ++
  encFlag s.hold.suspectOn ++ encFlag s.hold.uncertainOn ++ encFlag s.hold.mismatchOn ++
  s.hold.shown.toList.flatMap HoldView.statusBytes ++
  (List.range 12).flatMap s.pinBytes

/-- The reply of STATUS: the groups of R181 in their order. Its single flags take a byte each, and counts
bounded only by other rules the bytes that hold the bound: the model's choices (log 18). -/
def State.statusReply (s : State) : List Byte :=
  be 1 s.mgmt.strap.toNat ++ be 6 s.station ++ be 2 s.mgmt.plant ++ be 6 s.mgmt.manager0 ++
  be 6 s.mgmt.manager1 ++
  encTime s.mgmt.clock ++ encFlag s.mgmt.clockSet ++ be 4 s.mgmt.codeDay ++
  s.portA.linkByte ++ s.portB.linkByte ++ s.portA.statusBytes ++ s.portB.statusBytes ++
  s.dec.statusBytes ++ s.queueBytes ++ s.engineBytes ++
  s.lin.fillers.toList.flatMap Filler.statusBytes ++ s.jrn.statusBytes ++ s.holdBytes ++
  be 4 s.mgmt.versionDrops ++ be 4 s.mgmt.replyDrops ++ be 4 s.mgmt.refusals

/-! ## Frames (R183, R184) -/

/-- A frame padded with zeros to 64 bytes, the FCS not counted (R184, log 10). -/
def padFrame (l : List Byte) : Frame := l ++ List.replicate (64 - l.length) 0

/-- A frame of the part's own: addresses, type, version, code, tag, status, arguments. -/
def ownFrame (dst station code tag : Nat) (st : Status) (args : List Byte) : Frame :=
  padFrame (be 6 dst ++ be 6 station ++ be 2 Config.managementType ++ be 1 Config.version ++
    be 1 code ++ be 2 tag ++ encStatus st ++ be 2 args.length ++ args)

/-- The arguments of a code notice (R184). -/
def Notice.args (n : Notice) : List Byte :=
  be 2 n.plant ++ be 1 n.number ++ be 4 n.serial ++ encCode n.code ++ be 2 n.product ++
  encCat n.declared ++ encOpt 4 n.firstSerial

/-- The frame of an injected frame, from the station address. -/
def Injected.frame (station : Nat) : Injected → Frame
  | .reply r => ownFrame r.dst station r.code r.tag r.status r.args
  | .notice n => ownFrame n.dst station 0x80 0 .done n.args

end Sys2Proof.Machine
end

