-- ==== Sys2Proof/Machine/Manage.lean ====
section
/-! DEFINITION. The Management unit: acceptance of command frames (R173, R174), direct commands at once
and between operations (R175), queued commands (R176), CLEAR_ENGINE (R162, R182), and what each
direct command does. -/

namespace Sys2Proof.Machine

open Sys2Proof

/-! ## Direct commands at once -/

/-- The widths allowed to the fields of a class are those given, in number and value (R151). -/
def widthsAllowed : List (List Nat) → List FieldSpec → Bool
  | [], [] => true
  | ws :: t, f :: fs => ws.contains f.width && widthsAllowed t fs
  | _, _ => false

/-- The objects of an entry's items are objects of its class (R150). -/
def objectsInRange (e : MatchEntry) : Bool :=
  match e.cls.lastObject with
  | none => true
  | some last => e.objBase + e.count - 1 ≤ last

/-- The checks of LOAD_MATCH (R150). -/
def matchOk (index : Nat) (e : MatchEntry) : Bool :=
  index ≤ 63 && e.base ≤ e.limit && 1 ≤ e.count && e.count ≤ 16 && e.stride ≤ 1499 &&
  e.fields.all (fun f => f.off ≤ 1499) && widthsAllowed e.cls.widths e.fields && objectsInRange e

/-- LOAD_MATCH (R150). -/
def State.loadMatch (s : State) (index : Nat) (e : MatchEntry) : State × Status :=
  if matchOk index e then
    (s.setDec { s.dec with matchTable := vset s.dec.matchTable index e }, .done)
  else (s, .badArgument)

/-- LOAD_FILTER (R149). -/
def State.loadFilter (s : State) (f : TelegramFilter) : State × Status :=
  if f.stationOff ≤ 1499 && f.kindOff ≤ 1499 && (f.stationWidth == 1 || f.stationWidth == 2) then
    (s.setDec { s.dec with filter := f }, .done)
  else (s, .badArgument)

/-- LOAD_OVERRIDE (R153). -/
def State.loadOverride (s : State) (slot : Nat) (o : Override) : State × Status :=
  if slot ≤ 3 && o.cluster ≤ 31 then
    (s.setDec { s.dec with overrides := vset s.dec.overrides slot o }, .done)
  else (s, .badArgument)

/-- The group bit of an address: the lowest bit of its first byte (R177). -/
def groupBit (address : Nat) : Bool := address / 2 ^ 40 % 2 == 1

/-- An address may stand in the manager list (R177). -/
def State.managerOk (s : State) (address : Nat) : Bool :=
  !groupBit address && address != s.station

/-- SET_MANAGERS (R177). -/
def State.setManagers (s : State) (first second : Nat) : State × Status :=
  if s.managerOk first && s.managerOk second then
    (s.setMgmt { s.mgmt with manager0 := first, manager1 := second }, .done)
  else (s, .badArgument)

/-- JOURNAL_FETCH: its status and its reply (R168, section 12.4). -/
def State.journalFetch (s : State) (start : Seq) : Status × List Byte :=
  let d := (start - s.jrn.oldest).toNat
  if d ≤ s.jrn.publishedCount then (.done, s.fetchReply (s.jrn.fetched d))
  else (.range, s.fetchReply [])

/-- The records a release of `newest` reaches: d of R169. -/
def Journal.releaseCount (j : Journal) (newest : Seq) : Nat := (newest - j.oldest + 1).toNat

/-- Releasing the `newest` record and every older one (R169). -/
def Journal.release (j : Journal) (newest : Seq) : Journal :=
  { j with oldest := newest + 1, records := j.records.drop (j.releaseCount newest) }

/-- JOURNAL_RELEASE (R169). -/
def State.journalRelease (s : State) (newest : Seq) : State × Status :=
  if s.jrn.releaseCount newest ≤ s.jrn.publishedCount then
    (s.setJrn (s.jrn.release newest), .done)
  else (s, .range)

/-- A direct command at once: its effect, its status and its reply arguments (R175). -/
def State.applyAtOnce (s : State) (c : AtOnce) : State × Status × List Byte :=
  match c with
  | .status => (s, .done, s.statusReply)
  | .loadMatch i e =>
    let r := s.loadMatch i e
    (r.1, r.2, [])
  | .loadFilter f =>
    let r := s.loadFilter f
    (r.1, r.2, [])
  | .loadOverride k o =>
    let r := s.loadOverride k o
    (r.1, r.2, [])
  | .setManagers a b =>
    let r := s.setManagers a b
    (r.1, r.2, [])
  | .journalFetch n =>
    let r := s.journalFetch n
    (s, r.1, r.2)
  | .journalRelease n =>
    let r := s.journalRelease n
    (r.1, r.2, r.1.jrn.header)

/-! ## Direct commands between operations -/

/-- LOAD_METER (R22). -/
def State.loadMeter (s : State) (m width num den jump : Nat) : State × Status :=
  if m ≤ 47 && (width == 16 || width == 32) && 1 ≤ num && num ≤ 65535 && 1 ≤ den && den ≤ 65535 &&
      jump ≤ Config.contentCeiling then
    (s.setLin (s.lin.updMeter m (fun x =>
      { x with configured := true, width := width, num := num, den := den, jump := jump,
               refValid := false, residue := 0 })), .done)
  else (s, .badArgument)

/-- The entry LOAD_ROUTE gives. -/
def routeEntryOf (r : RouteArgs) : RouteEntry :=
  { valid := flagSet r.valid, meter := r.meter, src := r.src, dst := r.dst, count := r.count, c1 := r.c1,
    c2 := r.c2 }

/-- Step 3 of R82 finds nothing wrong with a valid entry. -/
def Lineage.routeOk (l : Lineage) (e : RouteEntry) : Bool :=
  let a := (l.vessel e.src).kind
  let b := (l.vessel e.dst).kind
  e.meter ≤ 47 && e.src ≤ 63 && e.dst ≤ 63 && a != .unconfigured && b != .unconfigured &&
  a != .filler && b != .bay && e.inUse.all (fun c => c.cluster ≤ 31)

/-- The status of a LOAD_ROUTE (R82). A valid byte other than 0 or 1 is refused by step 1 (log 16). -/
def Lineage.checkLoadRoute (l : Lineage) (r : RouteArgs) : Status :=
  match bankOfByte r.bank with
  | none => .badArgument
  | some k =>
    if 127 < r.index || 2 < r.count || (flagOfByte r.valid).isNone then .badArgument
    else if k == l.active then .activeBank
    else if flagSet r.valid && !l.routeOk (routeEntryOf r) then .tableInvalid
    else .done

/-- An entry of a bank replaced. -/
def Lineage.setEntry (l : Lineage) (k : Bank) (i : Nat) (e : RouteEntry) : Lineage :=
  match k with
  | .a => { l with bankA := vset l.bankA i e }
  | .b => { l with bankB := vset l.bankB i e }

/-- LOAD_ROUTE (R82). -/
def State.loadRoute (s : State) (r : RouteArgs) : State × Status :=
  let st := s.lin.checkLoadRoute r
  if st == .done then
    (s.setLin (s.lin.setEntry ((bankOfByte r.bank).getD .a) r.index (routeEntryOf r)), st)
  else (s, st)

/-- The table that 64 cells give, row 0 first (R11). -/
def catTable (cells : List Nat) : Vector (Vector (Fin 8) 8) 8 :=
  Vector.ofFn (fun i => Vector.ofFn (fun j => Fin.ofNat 8 (cells.getD (i.val * 8 + j.val) 0)))

/-- LOAD_CATEGORY (R11). -/
def State.loadCategory (s : State) (cells : List Nat) : State × Status :=
  if cells.all (· ≤ 7) then (s.setLin { s.lin with catTab := catTable cells }, .done)
  else (s, .badArgument)

/-- LOAD_POLICY (R140). -/
def State.loadPolicy (s : State) (p : PolicyArgs) : State × Status :=
  match p with
  | .cond row report target =>
    match flagOfByte report, targetOfByte target with
    | some r, some t =>
      if row ≤ 19 then
        (s.setHold { s.hold with policy := vset s.hold.policy row ⟨r, t⟩ }, .done)
      else (s, .badArgument)
    | _, _ => (s, .badArgument)
  | .content cause enable =>
    match cause, flagOfByte enable with
    | 0, some on => (s.setHold { s.hold with suspectOn := on }, .done)
    | 1, some on => (s.setHold { s.hold with uncertainOn := on }, .done)
    | 2, some on => (s.setHold { s.hold with mismatchOn := on }, .done)
    | _, _ => (s, .badArgument)

/-- LOAD_OUTPUT (R142). The filler byte of a source other than FILLER_HOLD is stored as received, and the
command's polarity replaces the one that an entry of source NONE kept: the model's choices (log 38). -/
def State.loadOutput (s : State) (pin source filler polarity : Nat) : State × Status :=
  match sourceOfByte source, flagOfByte polarity with
  | some src, some low =>
    if pin ≤ 11 && (src != .fillerHold || filler ≤ 7) then
      (s.setHold { s.hold with
        outMap := vset s.hold.outMap pin { source := src, filler := filler, activeLow := low } },
       .done)
    else (s, .badArgument)
  | _, _ => (s, .badArgument)

/-- SET_PLANT (R180). -/
def State.setPlant (s : State) (n : Nat) : State × Status :=
  if n ≤ 9999 then (s.setMgmt { s.mgmt with plant := n }, .done) else (s, .badArgument)

/-- A counter replaced by a non-zero value (R51). -/
def loadedSerial (old new : Nat) : Nat := if new == 0 then old else new

/-- SET_SERIALS (R51). -/
def State.setSerials (s : State) (c b n : Nat) : State × Status :=
  if c ≤ Config.serialMax && b ≤ Config.serialMax && n ≤ Config.serialMax then
    (s.setLin { s.lin with
      collNext := loadedSerial s.lin.collNext c
      blendNext := loadedSerial s.lin.blendNext b
      batchNext := loadedSerial s.lin.batchNext n }, .done)
  else (s, .badArgument)

/-- Every filler's sequence counter returned to 1 (R106). -/
def Lineage.resetSequences (l : Lineage) : Lineage :=
  { l with fillers := l.fillers.map (fun f => { f with seq := 1 }) }

/-- Steps 2 to 4 of SET_CLOCK (R179). -/
def State.applyClock (s : State) (tag : Nat) (t : TimeStamp) : State :=
  let before := s.mgmt
  let s1 := s.setMgmt { s.mgmt with clock := t, clockSet := true }
  let s2 := if t.day == before.codeDay then s1 else s1.setLin s1.lin.resetSequences
  let s3 := s2.write tag (.engineClock before.clock before.clockSet)
  s3.setJrn s3.jrn.publish

/-- SET_CLOCK (R179). -/
def State.setClock (s : State) (tag : Nat) (t : TimeStamp) : State × Status :=
  if 99999 < t.day || 86399 < t.sec || 99 < t.hund then (s, .badArgument)
  else if s.jrn.free == 0 then (s, .range)
  else (s.applyClock tag t, .done)

/-- READ_VESSEL (R20). -/
def State.readVessel (s : State) (v : Nat) : Status × List Byte :=
  if 63 < v then (.badArgument, []) else (.done, s.lin.readVessel v)

/-- READ_KEY (R57). -/
def State.readKey (s : State) (k : RawKey) : Status × List Byte :=
  match k.toRecordKey with
  | none => (.badArgument, [])
  | some .unknown => (.badArgument, [])
  | some (.coll n) =>
    match s.lin.findColl n with
    | none => (.notResident, encKey (.coll n))
    | some (i, r) => (.done, readColl i r)
  | some (.blend n) =>
    match s.lin.findBlend n with
    | none => (.notResident, encKey (.blend n))
    | some (i, r) => (.done, readBlend i r)

/-- READ_BATCH; position 0 is the newest record (R117). -/
def State.readBatch (s : State) (f position : Nat) : Status × List Byte :=
  if 7 < f || 7 < position then (.badArgument, [])
  else
    match (s.lin.filler f).ring.reverse[position]? with
    | none => (.notResident, [])
    | some b => (.done, readBatchBytes (s.lin.filler f) b)

/-- READ_BAY (R78). -/
def State.readBay (s : State) (v : Nat) : Status × List Byte :=
  if 63 < v || (s.lin.vessel v).kind != .bay then (.badArgument, [])
  else (.done, s.lin.readBay v)

/-- READ_METER (R95). -/
def State.readMeter (s : State) (m : Nat) : Status × List Byte :=
  if 47 < m then (.badArgument, []) else (.done, s.lin.readMeter m)

/-- A direct command between operations: its effect, its status and its reply arguments (R175). -/
def State.applyBetween (s : State) (tag : Nat) (c : Between) : State × Status × List Byte :=
  match c with
  | .loadVessel v cfg =>
    let r := s.loadVessel v cfg
    (r.1, r.2, [])
  | .loadMeter m w n d j =>
    let r := s.loadMeter m w n d j
    (r.1, r.2, [])
  | .loadRoute a =>
    let r := s.loadRoute a
    (r.1, r.2, [])
  | .loadCategory l =>
    let r := s.loadCategory l
    (r.1, r.2, [])
  | .loadPolicy p =>
    let r := s.loadPolicy p
    (r.1, r.2, [])
  | .loadOutput a b c d =>
    let r := s.loadOutput a b c d
    (r.1, r.2, [])
  | .setPlant n =>
    let r := s.setPlant n
    (r.1, r.2, [])
  | .setSerials a b c =>
    let r := s.setSerials a b c
    (r.1, r.2, [])
  | .setClock d h k =>
    let r := s.setClock tag ⟨d, h, k⟩
    (r.1, r.2, [])
  | .readVessel v => (s, s.readVessel v)
  | .readKey k => (s, s.readKey k)
  | .readBatch f p => (s, s.readBatch f p)
  | .readBay v => (s, s.readBay v)
  | .readMeter m => (s, s.readMeter m)

/-! ## Codes and forms (R183) -/

def atOnceCode : AtOnce → Nat
  | .status => 0x01
  | .loadMatch .. => 0x10
  | .loadFilter _ => 0x11
  | .loadOverride .. => 0x12
  | .setManagers .. => 0x20
  | .journalFetch _ => 0x38
  | .journalRelease _ => 0x39

def betweenCode : Between → Nat
  | .loadVessel .. => 0x13
  | .loadMeter .. => 0x14
  | .loadRoute _ => 0x15
  | .loadCategory _ => 0x16
  | .loadPolicy _ => 0x17
  | .loadOutput .. => 0x18
  | .setPlant _ => 0x21
  | .setSerials .. => 0x22
  | .setClock .. => 0x23
  | .readVessel _ => 0x30
  | .readKey _ => 0x31
  | .readBatch .. => 0x32
  | .readBay _ => 0x33
  | .readMeter _ => 0x34

/-- The command code of a queued command; plant items, IDLE_CLOSE and GAP have none. -/
def queuedCode : EntryVal → Nat
  | .switchBank => 0x40
  | .vesselWrite _ => 0x41
  | .manualTransfer .. => 0x42
  | .cipStart _ => 0x43
  | .cipEnd _ => 0x44
  | .batchOpen .. => 0x45
  | .batchClose _ => 0x46
  | .suspectKey _ => 0x48
  | .suspectSample _ => 0x49
  | .suspectFarm _ => 0x4A
  | .releaseKey _ => 0x4C
  | .releaseSample _ => 0x4D
  | .releaseFarm _ => 0x4E
  | .holdRelease _ => 0x50
  | _ => 0

/-- The command code of a command (R183). -/
def commandCode : Command → Nat
  | .atOnce c => atOnceCode c
  | .between c => betweenCode c
  | .queued v => queuedCode v
  | .clear => 0x3F

/-- The argument length of LOAD_MATCH, computed from the class; the unit of a MANIFEST volume is one
byte (R183, log 15). -/
def matchArgLen (c : ItemClass) : Nat :=
  12 + 3 * c.widths.length + (if c == .manifest then 1 else 0)

/-- The argument length of LOAD_VESSEL, computed from the kind (R183). -/
def vesselArgLen : VesselCfg → Nat
  | .unconfigured => 2
  | .store _ => 6
  | .bay .. => 4
  | .filler .. => 15
  | .unknown _ => 2

def atOnceArgLen : AtOnce → Nat
  | .status => 0
  | .loadMatch _ e => matchArgLen e.cls
  | .loadFilter _ => 7
  | .loadOverride .. => 7
  | .setManagers .. => 12
  | .journalFetch _ => 4
  | .journalRelease _ => 4

def betweenArgLen : Between → Nat
  | .loadVessel _ cfg => vesselArgLen cfg
  | .loadMeter .. => 10
  | .loadRoute _ => 17
  | .loadCategory _ => 64
  | .loadPolicy _ => 3
  | .loadOutput .. => 4
  | .setPlant _ => 2
  | .setSerials .. => 12
  | .setClock .. => 9
  | .readVessel _ => 1
  | .readKey _ => 4
  | .readBatch .. => 2
  | .readBay _ => 1
  | .readMeter _ => 1

def queuedArgLen : EntryVal → Nat
  | .vesselWrite w => 4 + 9 * w.entries.length
  | .manualTransfer .. => 6
  | .cipStart _ => 1
  | .cipEnd _ => 1
  | .batchOpen .. => 4
  | .batchClose _ => 1
  | .suspectKey _ => 4
  | .suspectSample _ => 4
  | .suspectFarm _ => 4
  | .releaseKey _ => 4
  | .releaseSample _ => 4
  | .releaseFarm _ => 4
  | .holdRelease _ => 1
  | _ => 0

/-- The argument length the layout of a command requires (R183, log 15). -/
def commandArgLen : Command → Nat
  | .atOnce c => atOnceArgLen c
  | .between c => betweenArgLen c
  | .queued v => queuedArgLen v
  | .clear => 0

/-- A vessel kind that is none of the four has no layout (R183). -/
def hasLayout : Command → Bool
  | .between (.loadVessel _ (.unknown _)) => false
  | _ => true

/-- The form check of step 4 of R173 passes. -/
def formOk (h : CmdHdr) (c : Command) : Bool :=
  hasLayout c && h.argLen == commandArgLen c && h.argLen ≤ h.avail

/-! ## Acceptance (R173 to R176) -/

/-- The reply to a command frame with a code. -/
def replyTo (h : CmdHdr) (code : Nat) (st : Status) (args : List Byte) : Reply :=
  { dst := h.source, code := code, tag := h.tag, status := st, args := args }

/-- A source may send commands: the list is empty or holds it (R173, R177). -/
def Mgmt.permits (m : Mgmt) (source : Nat) : Bool :=
  (m.manager0 == 0 && m.manager1 == 0) || (source != 0 && (m.manager0 == source || m.manager1 == source))

/-- A command that passed R173 joins those that wait for the engine (R175). -/
def State.enqueueWaiting (s : State) (h : CmdHdr) (w : WaitCmd) : State :=
  s.setWaiting (s.waiting ++
    [{ port := h.port, source := h.source, tag := h.tag, lost := false, cmd := w }])

/-- The status of a queued command (R176). -/
def offerStatus (accepted : Bool) : Status := if accepted then .queued else .queueFull

/-- Step 5 of R173: the command is handed on (R175, R176, R182). -/
def State.handOn (s : State) (h : CmdHdr) (c : Command) : State :=
  match c with
  | .atOnce a =>
    let r := s.applyAtOnce a
    (r.1.answer h.port false (replyTo h (atOnceCode a) r.2.1 r.2.2)).settle
  | .between b =>
    if s.busy then s.enqueueWaiting h (.between b)
    else
      let r := s.applyBetween h.tag b
      r.1.answer h.port false (replyTo h (betweenCode b) r.2.1 r.2.2)
  | .queued v =>
    let r := s.offerCommand v h.tag
    (r.1.answer h.port false (replyTo h (queuedCode v) (offerStatus r.2) [])).settle
  | .clear => s.enqueueWaiting h .clear

/-- Steps 3 to 5, with the reply's place reserved. `code` is the code as received; the command is
none where step 4 refuses the frame. -/
def State.checkReserved (s : State) (h : CmdHdr) (code : Nat) (c : Option Command) : State :=
  if !s.mgmt.permits h.source then
    (s.setMgmt { s.mgmt with refusals := tick32 s.mgmt.refusals }).answer h.port false
      (replyTo h code .notPermitted [])
  else
    match c with
    | none => s.answer h.port false (replyTo h code .badArgument [])
    | some cmd => s.handOn h cmd

/-- The checks of R173 on a command frame, in their order. -/
def State.accept (s : State) (h : CmdHdr) (code : Nat) (c : Option Command) : State :=
  if h.version != Config.version then
    s.setMgmt { s.mgmt with versionDrops := tick32 s.mgmt.versionDrops }
  else if !(s.port h.port).room then
    s.setMgmt { s.mgmt with replyDrops := tick32 s.mgmt.replyDrops }
  else (s.reserve h.port).checkReserved h code c

/-- A port receives: RESET is released and its link is UP (R182, log 3). -/
def State.receives (s : State) (p : Port) : Bool := !s.resetAsserted && (s.port p).linkUp

/-- A command row: a good command frame with this header and command arrives (R172). -/
def State.command (s : State) (h : CmdHdr) (c : Command) : State :=
  if s.receives h.port then
    s.accept h (commandCode c) (if formOk h c then some c else none)
  else s

/-! ## Command frames (R183) -/

/-- The field specifications of LOAD_MATCH: `k` counts the fields, and the unit byte follows the
volume of a MANIFEST (log 15). -/
def parseFields (manifest : Bool) : Nat → List (List Nat) → List Byte → List FieldSpec
  | _, [], _ => []
  | k, _ :: t, l =>
    ⟨numAt! l 0 2, numAt! l 2 1⟩ ::
      parseFields manifest (k + 1) t (l.drop (if manifest && k == 3 then 4 else 3))

/-- The arguments of LOAD_MATCH (log 15). -/
def parseMatch (l : List Byte) : Option Command :=
  match ItemClass.ofCode (numAt! l 7 1), flagOfByte (numAt! l 1 1) with
  | some c, some valid =>
    if l.length == matchArgLen c then
      let manifest := c == .manifest
      match (if manifest then unitOfByte (numAt! l (12 + 12) 1) else some .cl) with
      | none => none
      | some unit =>
        some (.atOnce (.loadMatch (numAt! l 0 1)
          { valid := valid, base := numAt! l 2 2, limit := numAt! l 4 2, kind := numAt! l 6 1,
            cls := c, objBase := numAt! l 8 1, count := numAt! l 9 1, stride := numAt! l 10 2,
            fields := parseFields manifest 0 c.widths (l.drop 12), volUnit := unit }))
    else none
  | _, _ => none

/-- The configuration of LOAD_VESSEL, from the bytes behind the index: the kind and the fields that R2
gives it (log 15). -/
def parseVesselCfg (l : List Byte) : Option VesselCfg :=
  match numAt! l 1 1, l.length with
  | 0, 2 => some .unconfigured
  | 1, 6 => some (.store (numAt! l 2 4))
  | 2, 4 => some (.bay (numAt! l 2 1) (numAt! l 3 1))
  | 3, 15 =>
    some (.filler (numAt! l 2 1) (numAt! l 3 1) (numAt! l 4 6) (numAt! l 10 1) (numAt! l 11 2)
      (numAt! l 13 2))
  | _, _ => none

/-- A condition of LOAD_ROUTE at an offset. -/
def parseCond (l : List Byte) (off : Nat) : RouteCond :=
  ⟨numAt! l off 1, BitVec.ofNat 16 (numAt! l (off + 1) 2), BitVec.ofNat 16 (numAt! l (off + 3) 2)⟩

/-- The arguments of LOAD_ROUTE, behind its length check. -/
def parseRoute (l : List Byte) : Command :=
  .between (.loadRoute
    { bank := numAt! l 0 1, index := numAt! l 1 1, valid := numAt! l 2 1, meter := numAt! l 3 1,
      src := numAt! l 4 1, dst := numAt! l 5 1, count := numAt! l 6 1, c1 := parseCond l 7,
      c2 := parseCond l 12 })

/-- The row byte of LOAD_POLICY: 0 to 19 a condition kind, 20 to 22 a content cause (log 15). -/
def parsePolicy (l : List Byte) : Command :=
  let row := numAt! l 0 1
  if 20 ≤ row && row ≤ 22 then .between (.loadPolicy (.content (row - 20) (numAt! l 1 1)))
  else .between (.loadPolicy (.cond row (numAt! l 1 1) (numAt! l 2 1)))

/-- The arguments of LOAD_OVERRIDE, behind its length check. -/
def parseOverride (l : List Byte) : Option Command :=
  (flagOfByte (numAt! l 1 1)).map (fun on =>
    .atOnce (.loadOverride (numAt! l 0 1)
      { enable := on, cluster := numAt! l 2 1, mask := BitVec.ofNat 16 (numAt! l 3 2),
        forced := BitVec.ofNat 16 (numAt! l 5 2) }))

/-- The entries of VESSEL_WRITE. -/
def parseEntries : Nat → List Byte → List WriteEntry
  | 0, _ => []
  | n + 1, l =>
    { key := rawKeyOfNat (numAt! l 0 4), cat := numAt! l 4 1, vol := numAt! l 5 4 } ::
      parseEntries n (l.drop 9)

/-- The arguments of VESSEL_WRITE: the required length is computed from the count byte (R183). -/
def parseWrite (l : List Byte) : Option Command :=
  let n := numAt! l 3 1
  if 4 ≤ l.length && l.length == 4 + 9 * n then
    some (.queued (.vesselWrite
      { vessel := numAt! l 0 1, cat := numAt! l 1 1, uncertain := numAt! l 2 1,
        entries := parseEntries n (l.drop 4) }))
  else none

/-- A command of a fixed length. -/
def fixedLen (l : List Byte) (n : Nat) (c : Command) : Option Command :=
  if l.length == n then some c else none

/-- A key argument. -/
def keyArg (l : List Byte) : RawKey := rawKeyOfNat (numAt! l 0 4)

/-- The direct command a code and its arguments spell. LOAD_FILTER has no byte for the width of the kind
field, which R149 fixes at 1: the model's choice (log 15). -/
def parseDirect (code : Nat) (l : List Byte) : Option Command :=
  match code with
  | 0x01 => fixedLen l 0 (.atOnce .status)
  | 0x10 => parseMatch l
  | 0x11 =>
    fixedLen l 7 (.atOnce (.loadFilter
      ⟨numAt! l 0 2, numAt! l 2 2, numAt! l 4 1, numAt! l 5 2⟩))
  | 0x12 => if l.length == 7 then parseOverride l else none
  | 0x13 => (parseVesselCfg l).map (fun cfg => .between (.loadVessel (numAt! l 0 1) cfg))
  | 0x14 =>
    fixedLen l 10 (.between (.loadMeter (numAt! l 0 1) (numAt! l 1 1) (numAt! l 2 2)
      (numAt! l 4 2) (numAt! l 6 4)))
  | 0x15 => fixedLen l 17 (parseRoute l)
  | 0x16 => fixedLen l 64 (.between (.loadCategory (l.map BitVec.toNat)))
  | 0x17 => fixedLen l 3 (parsePolicy l)
  | 0x18 =>
    fixedLen l 4 (.between (.loadOutput (numAt! l 0 1) (numAt! l 1 1) (numAt! l 2 1)
      (numAt! l 3 1)))
  | 0x20 => fixedLen l 12 (.atOnce (.setManagers (numAt! l 0 6) (numAt! l 6 6)))
  | 0x21 => fixedLen l 2 (.between (.setPlant (numAt! l 0 2)))
  | 0x22 => fixedLen l 12 (.between (.setSerials (numAt! l 0 4) (numAt! l 4 4) (numAt! l 8 4)))
  | 0x23 => fixedLen l 9 (.between (.setClock (numAt! l 0 4) (numAt! l 4 4) (numAt! l 8 1)))
  | 0x30 => fixedLen l 1 (.between (.readVessel (numAt! l 0 1)))
  | 0x31 => fixedLen l 4 (.between (.readKey (keyArg l)))
  | 0x32 => fixedLen l 2 (.between (.readBatch (numAt! l 0 1) (numAt! l 1 1)))
  | 0x33 => fixedLen l 1 (.between (.readBay (numAt! l 0 1)))
  | 0x34 => fixedLen l 1 (.between (.readMeter (numAt! l 0 1)))
  | 0x38 => fixedLen l 4 (.atOnce (.journalFetch (BitVec.ofNat 32 (numAt! l 0 4))))
  | 0x39 => fixedLen l 4 (.atOnce (.journalRelease (BitVec.ofNat 32 (numAt! l 0 4))))
  | 0x3F => fixedLen l 0 .clear
  | _ => none

/-- The queued command a code and its arguments spell. -/
def parseQueued (code : Nat) (l : List Byte) : Option Command :=
  match code with
  | 0x40 => fixedLen l 0 (.queued .switchBank)
  | 0x41 => parseWrite l
  | 0x42 =>
    fixedLen l 6 (.queued (.manualTransfer (numAt! l 0 1) (numAt! l 1 1) (numAt! l 2 4)))
  | 0x43 => fixedLen l 1 (.queued (.cipStart (numAt! l 0 1)))
  | 0x44 => fixedLen l 1 (.queued (.cipEnd (numAt! l 0 1)))
  | 0x45 => fixedLen l 4 (.queued (.batchOpen (numAt! l 0 1) (numAt! l 1 2) (numAt! l 3 1)))
  | 0x46 => fixedLen l 1 (.queued (.batchClose (numAt! l 0 1)))
  | 0x48 => fixedLen l 4 (.queued (.suspectKey (keyArg l)))
  | 0x49 => fixedLen l 4 (.queued (.suspectSample (numAt! l 0 4)))
  | 0x4A => fixedLen l 4 (.queued (.suspectFarm (numAt! l 0 4)))
  | 0x4C => fixedLen l 4 (.queued (.releaseKey (keyArg l)))
  | 0x4D => fixedLen l 4 (.queued (.releaseSample (numAt! l 0 4)))
  | 0x4E => fixedLen l 4 (.queued (.releaseFarm (numAt! l 0 4)))
  | 0x50 => fixedLen l 1 (.queued (.holdRelease (numAt! l 0 1)))
  | _ => none

/-- The command a code and its arguments spell; none is answered BAD_ARGUMENT (R173, step 4). -/
def parseCommand (code : Nat) (l : List Byte) : Option Command :=
  if code < 0x40 then parseDirect code l else parseQueued code l

/-- The header of a command frame (R183). -/
def parseHeader (p : Port) (f : Frame) : CmdHdr :=
  let payload := Frame.payload f
  { port := p, source := Frame.src f, version := numAt! payload 0 1, tag := numAt! payload 2 2,
    argLen := numAt! payload 4 2, avail := payload.length - 6 }

/-- The arguments of a command frame, where they stand in the payload. -/
def parseArgs (f : Frame) : Option (List Byte) :=
  let payload := Frame.payload f
  bytesAt payload 6 (numAt! payload 4 2)

/-- A frame consumed by the Management unit (R145, R172). -/
def State.consume (s : State) (p : Port) (f : Frame) : State :=
  let code := numAt! (Frame.payload f) 1 1
  s.accept (parseHeader p f) code ((parseArgs f).bind (parseCommand code))

/-! ## Waiting commands (R175) -/

/-- A waiting command is a direct command between operations. -/
def Waiting.isBetween (w : Waiting) : Bool := w.cmd != .clear

/-- A waiting direct command is carried out and answered. -/
def State.carryOut (s : State) (w : Waiting) : State :=
  match w.cmd with
  | .clear => s
  | .between b =>
    let r := s.applyBetween w.tag b
    r.1.answer w.port w.lost
      { dst := w.source, code := betweenCode b, tag := w.tag, status := r.2.1, args := r.2.2 }

/-- Every direct command that waits ahead of a CLEAR_ENGINE is carried out, in order of arrival,
when no operation is in flight; then the engine goes on (R175). -/
def State.deferred (s : State) : State :=
  if s.resetAsserted || s.inFlight.isSome then s
  else
    let due := s.waiting.takeWhile Waiting.isBetween
    let s1 := s.setWaiting (s.waiting.dropWhile Waiting.isBetween)
    (due.foldl State.carryOut s1).settle

/-! ## CLEAR_ENGINE (R162, R182) -/

/-- Step 1: the queue, the pending idle closes and the Valve Filter emptied. -/
def State.clearQueue (s : State) : State :=
  ((s.setEvq []).setDec { s.dec with valveFilter := Vector.replicate 32 none }).setLin
    { s.lin with fillers := s.lin.fillers.map (fun f => { f with pendingIdle := none }) }

/-- Step 2: every open batch closed with reason CLEAR, in ascending filler index (R118). -/
def State.clearBatches (s : State) (tag : Nat) : State :=
  (List.range 8).foldl (fun acc f => acc.closeBatch f .clear tag none .idle) s

/-- A vessel after CLEAR_ENGINE: its configuration with the content of its kind (R21). -/
def Vessel.cleared (x : Vessel) : Vessel :=
  match x.kind with
  | .unconfigured => {}
  | .store =>
    { x with state := .unseeded, list := [], cat := some 0, uncertain := true, suspect := false }
  | .bay => { x with state := .holding, list := [], cat := none, uncertain := false,
                     suspect := false }
  | .filler => { x with state := .holding, list := [], cat := none, uncertain := false,
                        suspect := false }

/-- A meter after CLEAR_ENGINE: its configuration kept (R22). -/
def Meter.cleared (x : Meter) : Meter := { x with ref := 0, refValid := false, residue := 0 }

/-- A filler record after CLEAR_ENGINE (R118). -/
def Filler.cleared (x : Filler) : Filler :=
  { x with state := .idle, ring := [], timer := none, pendingIdle := none }

/-- Step 3: the lineage state (R21, R22, R59, R79, R96, R118). -/
def Lineage.cleared (l : Lineage) (now : TimeStamp) : Lineage :=
  let l1 :=
    { l with
      vessels := l.vessels.map Vessel.cleared
      meters := l.meters.map Meter.cleared
      colls := []
      blends := []
      rings := Vector.replicate 8 Ring.cleared
      clusters := Vector.replicate 32 {}
      fillers := l.fillers.map Filler.cleared }
  l1.resolveAll.openAll now

/-- Step 4: the latch sets emptied (R143). -/
def HoldUnit.cleared (h : HoldUnit) : HoldUnit := { h with latches := Vector.replicate 9 0 }

/-- The fillers with an open batch. -/
def Lineage.openCount (l : Lineage) : Nat :=
  ((List.range 8).filter (fun f => (l.filler f).openBatch.isSome)).length

/-- The gap count standing in the queue, 0 when no GAP stands (R165). -/
def gapStanding (q : List Entry) : Nat :=
  match q.find? Entry.isGap with
  | none => 0
  | some g => g.gapCount

/-- The clear, applied as one operation: steps 1 to 5 of R162, published. -/
def State.clearOperation (s : State) (tag : Nat) : State :=
  let s1 := s.clearQueue.clearBatches tag
  let s2 := s1.setLin (s1.lin.cleared s1.now)
  let s3 := (s2.setHold s2.hold.cleared).evaluate tag .clear []
  let s4 := s3.write tag
    (.engineClear s.evq.length (gapStanding s.evq) s.lin.openCount)
  s4.setJrn s4.jrn.publish

/-- A CLEAR_ENGINE at the head of the waiting commands is applied once no operation is in flight
and the journal holds 80 free records; then it is answered and the engine goes on (R162, R182). -/
def State.applyClear (s : State) : State :=
  match s.waiting with
  | [] => s
  | w :: rest =>
    if s.resetAsserted || s.inFlight.isSome || w.cmd != .clear ||
        s.jrn.free < Config.journalReserve then s
    else
      let s1 := (s.clearOperation w.tag).setWaiting rest
      (s1.answer w.port w.lost
        { dst := w.source, code := 0x3F, tag := w.tag, status := .done, args := [] }).settle

/-! ## The command rows -/

def execStatus (h : CmdHdr) (s : State) : Host.Outcome State Fault Refusal :=
  .next (s.command h (.atOnce .status))

def execLoadMatch (h : CmdHdr) (index : Nat) (e : MatchEntry) (s : State) :
    Host.Outcome State Fault Refusal :=
  .next (s.command h (.atOnce (.loadMatch index e)))

def execLoadFilter (h : CmdHdr) (f : TelegramFilter) (s : State) :
    Host.Outcome State Fault Refusal :=
  .next (s.command h (.atOnce (.loadFilter f)))

def execLoadOverride (h : CmdHdr) (slot : Nat) (o : Override) (s : State) :
    Host.Outcome State Fault Refusal :=
  .next (s.command h (.atOnce (.loadOverride slot o)))

def execLoadVessel (h : CmdHdr) (index : Nat) (cfg : VesselCfg) (s : State) :
    Host.Outcome State Fault Refusal :=
  .next (s.command h (.between (.loadVessel index cfg)))

def execLoadMeter (h : CmdHdr) (index width num den jump : Nat) (s : State) :
    Host.Outcome State Fault Refusal :=
  .next (s.command h (.between (.loadMeter index width num den jump)))

def execLoadRoute (h : CmdHdr) (r : RouteArgs) (s : State) : Host.Outcome State Fault Refusal :=
  .next (s.command h (.between (.loadRoute r)))

def execLoadCategory (h : CmdHdr) (cells : List Nat) (s : State) :
    Host.Outcome State Fault Refusal :=
  .next (s.command h (.between (.loadCategory cells)))

def execLoadPolicy (h : CmdHdr) (p : PolicyArgs) (s : State) : Host.Outcome State Fault Refusal :=
  .next (s.command h (.between (.loadPolicy p)))

def execLoadOutput (h : CmdHdr) (pin source filler polarity : Nat) (s : State) :
    Host.Outcome State Fault Refusal :=
  .next (s.command h (.between (.loadOutput pin source filler polarity)))

def execSetManagers (h : CmdHdr) (first second : Nat) (s : State) :
    Host.Outcome State Fault Refusal :=
  .next (s.command h (.atOnce (.setManagers first second)))

def execSetPlant (h : CmdHdr) (plant : Nat) (s : State) : Host.Outcome State Fault Refusal :=
  .next (s.command h (.between (.setPlant plant)))

def execSetSerials (h : CmdHdr) (coll blend batch : Nat) (s : State) :
    Host.Outcome State Fault Refusal :=
  .next (s.command h (.between (.setSerials coll blend batch)))

def execSetClock (h : CmdHdr) (day sec hund : Nat) (s : State) :
    Host.Outcome State Fault Refusal :=
  .next (s.command h (.between (.setClock day sec hund)))

def execReadVessel (h : CmdHdr) (index : Nat) (s : State) : Host.Outcome State Fault Refusal :=
  .next (s.command h (.between (.readVessel index)))

def execReadKey (h : CmdHdr) (key : RawKey) (s : State) : Host.Outcome State Fault Refusal :=
  .next (s.command h (.between (.readKey key)))

def execReadBatch (h : CmdHdr) (filler position : Nat) (s : State) :
    Host.Outcome State Fault Refusal :=
  .next (s.command h (.between (.readBatch filler position)))

def execReadBay (h : CmdHdr) (index : Nat) (s : State) : Host.Outcome State Fault Refusal :=
  .next (s.command h (.between (.readBay index)))

def execReadMeter (h : CmdHdr) (index : Nat) (s : State) : Host.Outcome State Fault Refusal :=
  .next (s.command h (.between (.readMeter index)))

def execJournalFetch (h : CmdHdr) (start : Seq) (s : State) : Host.Outcome State Fault Refusal :=
  .next (s.command h (.atOnce (.journalFetch start)))

def execJournalRelease (h : CmdHdr) (newest : Seq) (s : State) :
    Host.Outcome State Fault Refusal :=
  .next (s.command h (.atOnce (.journalRelease newest)))

def execClearEngine (h : CmdHdr) (s : State) : Host.Outcome State Fault Refusal :=
  .next (s.command h .clear)

def execApplyClearEngine (s : State) : Host.Outcome State Fault Refusal := .next s.applyClear

def execDeferredDirectCommands (s : State) : Host.Outcome State Fault Refusal := .next s.deferred

def execSwitchBank (h : CmdHdr) (s : State) : Host.Outcome State Fault Refusal :=
  .next (s.command h (.queued .switchBank))

def execVesselWrite (h : CmdHdr) (w : WriteArgs) (s : State) : Host.Outcome State Fault Refusal :=
  .next (s.command h (.queued (.vesselWrite w)))

def execManualTransfer (h : CmdHdr) (src dst vol : Nat) (s : State) :
    Host.Outcome State Fault Refusal :=
  .next (s.command h (.queued (.manualTransfer src dst vol)))

def execCipStart (h : CmdHdr) (vessel : Nat) (s : State) : Host.Outcome State Fault Refusal :=
  .next (s.command h (.queued (.cipStart vessel)))

def execCipEnd (h : CmdHdr) (vessel : Nat) (s : State) : Host.Outcome State Fault Refusal :=
  .next (s.command h (.queued (.cipEnd vessel)))

def execBatchOpen (h : CmdHdr) (filler product cat : Nat) (s : State) :
    Host.Outcome State Fault Refusal :=
  .next (s.command h (.queued (.batchOpen filler product cat)))

def execBatchClose (h : CmdHdr) (filler : Nat) (s : State) : Host.Outcome State Fault Refusal :=
  .next (s.command h (.queued (.batchClose filler)))

def execSuspectKey (h : CmdHdr) (key : RawKey) (s : State) : Host.Outcome State Fault Refusal :=
  .next (s.command h (.queued (.suspectKey key)))

def execSuspectSample (h : CmdHdr) (sample : Nat) (s : State) : Host.Outcome State Fault Refusal :=
  .next (s.command h (.queued (.suspectSample sample)))

def execSuspectFarm (h : CmdHdr) (farm : Nat) (s : State) : Host.Outcome State Fault Refusal :=
  .next (s.command h (.queued (.suspectFarm farm)))

def execReleaseKey (h : CmdHdr) (key : RawKey) (s : State) : Host.Outcome State Fault Refusal :=
  .next (s.command h (.queued (.releaseKey key)))

def execReleaseSample (h : CmdHdr) (sample : Nat) (s : State) : Host.Outcome State Fault Refusal :=
  .next (s.command h (.queued (.releaseSample sample)))

def execReleaseFarm (h : CmdHdr) (farm : Nat) (s : State) : Host.Outcome State Fault Refusal :=
  .next (s.command h (.queued (.releaseFarm farm)))

def execHoldRelease (h : CmdHdr) (arg : Nat) (s : State) : Host.Outcome State Fault Refusal :=
  .next (s.command h (.queued (.holdRelease arg)))

end Sys2Proof.Machine
end

