-- ==== Sys2Proof/Machine/PortEvents.lean ====
section
/-! DEFINITION. Reset, the ports and time: RESET (R172, R182), links (R146), reception (R145),
transmission (R148), idle timers (R113) and the Plant Clock (R178). -/

namespace Sys2Proof.Machine

open Sys2Proof

/-! ## Reset -/

/-- RESET asserted: every block at its power-on values, whatever was in flight lost (R182). The
model's queue of events not yet happened is no part of the part (log 1). -/
def execPowerOnReset (s : State) : Host.Outcome State Fault Refusal :=
  .next { State.reset with resetAsserted := true, pending := s.pending }

/-- RESET released: the strap value is latched and the clock starts (R172, R178). -/
def execResetRelease (strap : BitVec 6) (s : State) : Host.Outcome State Fault Refusal :=
  .next
    (if s.resetAsserted then
      { s with resetAsserted := false, mgmt := { s.mgmt with strap := strap } }
    else s)

/-! ## Links (R146) -/

/-- A port whose link comes up: empty buffers (R146). -/
def PortState.up (x : PortState) : PortState :=
  { x with linkUp := true, fwd := [], inj := [], deferral := 0 }

/-- A port whose link goes down: the frames waiting discarded and counted (R146, R148). -/
def PortState.down (x : PortState) : PortState :=
  { x with
    linkUp := false, fwd := [], inj := [], deferral := 0
    linkLoss := grow32 x.linkLoss (x.fwd.length + x.inj.length) }

/-- The replies not yet answered on a port are lost with its link (R174). -/
def loseReplies (p : Port) (l : List Waiting) : List Waiting :=
  l.map (fun w => if w.port == p then { w with lost := true } else w)

def execLinkUp (p : Port) (s : State) : Host.Outcome State Fault Refusal :=
  .next
    (if s.resetAsserted || (s.port p).linkUp then s
    else s.setPort p (s.port p).up)

def execLinkDown (p : Port) (s : State) : Host.Outcome State Fault Refusal :=
  .next
    (if s.receives p then
      (s.setPort p (s.port p).down).setWaiting (loseReplies p s.waiting)
    else s)

/-! ## Reception (R145) -/

/-- A good frame: FCS and length (R145). -/
def frameGood (fcsGood : Bool) (f : Frame) : Bool :=
  fcsGood && Config.frameMin ≤ f.length && f.length ≤ Config.frameMax

/-- A frame for the Management unit (R145, R172). -/
def State.isCommandFrame (s : State) (f : Frame) : Bool :=
  Frame.dst f == s.station && Frame.etherType f == Config.managementType

/-- A good frame not consumed, received on the port other than `q`: into the buffer towards `q`, a
forwarding drop, or a link-loss discard; decoded but where it was dropped (R145, R146, log 11). -/
def State.forward (s : State) (q : Port) (f : Frame) : State :=
  let x := s.port q
  if !x.linkUp then (s.setPort q { x with linkLoss := tick32 x.linkLoss }).decodeFrame f
  else if Config.forwardMax ≤ x.fwd.length then
    s.setPort q { x with fwdDrops := tick32 x.fwdDrops }
  else (s.setPort q { x with fwd := x.fwd ++ [f] }).decodeFrame f

/-- A reception that completes on a port. -/
def State.receive (s : State) (p : Port) (fcsGood : Bool) (f : Frame) : State :=
  if !frameGood fcsGood f then
    s.setPort p { s.port p with rxErrors := tick32 (s.port p).rxErrors }
  else if s.isCommandFrame f then s.consume p f
  else s.forward p.other f

def execFrameReceive (p : Port) (fcsGood : Bool) (bytes : Frame) (s : State) :
    Host.Outcome State Fault Refusal :=
  .next (if s.receives p then s.receive p fcsGood bytes else s)

/-! ## Transmission (R148) -/

/-- The oldest forwarded frame is sent (R148). It counts as sent from here on, also when the link is
lost behind this row: the model's choice for R146 (log 39). -/
def PortState.sendForwarded (x : PortState) (f : Frame) (rest : List Frame) : PortState :=
  { x with
    fwd := rest, lastSent := some f, fwdSent := tick32 x.fwdSent
    deferral := if x.inj.isEmpty then x.deferral else x.deferral + 1 }

/-- The oldest injected frame is sent. -/
def PortState.sendInjected (x : PortState) (station : Nat) (i : Injected) (rest : List Injected) :
    PortState :=
  { x with inj := rest, lastSent := some (i.frame station), deferral := 0 }

/-- What a free transmitter sends next (R148). -/
def PortState.transmit (x : PortState) (station : Nat) : PortState :=
  match x.fwd, x.inj with
  | [], [] => x
  | f :: rest, [] => x.sendForwarded f rest
  | [], i :: rest => x.sendInjected station i rest
  | f :: rest, i :: injRest =>
    if x.deferral < Config.deferralMax then x.sendForwarded f rest
    else x.sendInjected station i injRest

def execFrameTransmit (p : Port) (s : State) : Host.Outcome State Fault Refusal :=
  .next (if s.receives p then s.setPort p ((s.port p).transmit s.station) else s)

/-! ## Idle timers (R113) -/

/-- A running timer has reached its expiry instant (log 12). -/
def State.timerDue (s : State) (f : Nat) : Bool :=
  match (s.lin.filler f).timer with
  | none => false
  | some e => e ≤ s.mgmt.elapsed

/-- An IDLE_CLOSE entry is offered, or held as the filler's pending idle close (R113). -/
def State.offerIdleClose (s : State) (f serial : Nat) : State :=
  let (s1, accepted) := s.offerIdle f serial s.now
  if accepted then s1.settle
  else
    s1.setLin (s1.lin.setFiller f
      { s1.lin.filler f with pendingIdle := some (serial, s.now) })

/-- The timer stops; with a batch open its IDLE_CLOSE is offered (R113). -/
def State.expire (s : State) (f : Nat) : State :=
  let s1 := s.setLin (s.lin.setFiller f { s.lin.filler f with timer := none })
  match (s1.lin.filler f).openBatch with
  | none => s1
  | some b => s1.offerIdleClose f b.serial

def execIdleTimerExpiry (filler : Nat) (s : State) : Host.Outcome State Fault Refusal :=
  .next (if !s.resetAsserted && s.timerDue filler then s.expire filler else s)

/-! ## The Plant Clock (R178) -/

/-- The reading one hundredth later. -/
def nextReading (t : TimeStamp) : TimeStamp :=
  if t.hund < 99 then { t with hund := t.hund + 1 }
  else if t.sec < 86399 then { t with sec := t.sec + 1, hund := 0 }
  else if t.day < 99999 then { day := t.day + 1, sec := 0, hund := 0 }
  else { day := 0, sec := 0, hund := 0 }

/-- The clock stands at the last hundredth of a day. -/
def lastOfDay (t : TimeStamp) : Bool := t.sec == 86399 && t.hund == 99

/-- One hundredth of REFCLK: the clock advances, and a change of the day of a set clock returns
every sequence counter to 1 (R106, R178). -/
def State.advance (s : State) : State :=
  let m := s.mgmt
  let s1 := s.setMgmt { m with clock := nextReading m.clock, elapsed := m.elapsed + 1 }
  if m.clockSet && (nextReading m.clock).day != m.clock.day then
    s1.setLin s1.lin.resetSequences
  else s1

def execPlantClockAdvance (s : State) : Host.Outcome State Fault Refusal :=
  .next (if s.resetAsserted then s else s.advance)

/-- The advance that carries the clock into the next day (log 14). -/
def execClockDayRollover (s : State) : Host.Outcome State Fault Refusal :=
  .next (if !s.resetAsserted && lastOfDay s.mgmt.clock then s.advance else s)

end Sys2Proof.Machine
end

