-- ==== Sys2Proof/Machine/Dispatch.lean ====
section
/-! DEFINITION. One arm for each command, one call of its meaning. -/

namespace Sys2Proof.Machine

open Sys2Proof

def exec (i : Instr) (s : State) : Host.Outcome State Fault Refusal :=
  match i with
  | .powerOnReset => Sys2Proof.Machine.execPowerOnReset s
  | .resetRelease strap => Sys2Proof.Machine.execResetRelease strap s
  | .linkUp p => Sys2Proof.Machine.execLinkUp p s
  | .linkDown p => Sys2Proof.Machine.execLinkDown p s
  | .frameReceive p fcsGood bytes => Sys2Proof.Machine.execFrameReceive p fcsGood bytes s
  | .frameTransmit p => Sys2Proof.Machine.execFrameTransmit p s
  | .idleTimerExpiry filler => Sys2Proof.Machine.execIdleTimerExpiry filler s
  | .clockDayRollover => Sys2Proof.Machine.execClockDayRollover s
  | .status h => Sys2Proof.Machine.execStatus h s
  | .loadMatch h index e => Sys2Proof.Machine.execLoadMatch h index e s
  | .loadFilter h f => Sys2Proof.Machine.execLoadFilter h f s
  | .loadOverride h slot o => Sys2Proof.Machine.execLoadOverride h slot o s
  | .loadVessel h index cfg => Sys2Proof.Machine.execLoadVessel h index cfg s
  | .loadMeter h index width num den jump => Sys2Proof.Machine.execLoadMeter h index width num den jump s
  | .loadRoute h r => Sys2Proof.Machine.execLoadRoute h r s
  | .loadCategory h cells => Sys2Proof.Machine.execLoadCategory h cells s
  | .loadPolicy h p => Sys2Proof.Machine.execLoadPolicy h p s
  | .loadOutput h pin source filler polarity => Sys2Proof.Machine.execLoadOutput h pin source filler polarity s
  | .setManagers h first second => Sys2Proof.Machine.execSetManagers h first second s
  | .setPlant h plant => Sys2Proof.Machine.execSetPlant h plant s
  | .setSerials h coll blend batch => Sys2Proof.Machine.execSetSerials h coll blend batch s
  | .setClock h day sec hund => Sys2Proof.Machine.execSetClock h day sec hund s
  | .readVessel h index => Sys2Proof.Machine.execReadVessel h index s
  | .readKey h key => Sys2Proof.Machine.execReadKey h key s
  | .readBatch h filler position => Sys2Proof.Machine.execReadBatch h filler position s
  | .readBay h index => Sys2Proof.Machine.execReadBay h index s
  | .readMeter h index => Sys2Proof.Machine.execReadMeter h index s
  | .journalFetch h start => Sys2Proof.Machine.execJournalFetch h start s
  | .journalRelease h newest => Sys2Proof.Machine.execJournalRelease h newest s
  | .clearEngine h => Sys2Proof.Machine.execClearEngine h s
  | .applyClearEngine => Sys2Proof.Machine.execApplyClearEngine s
  | .deferredDirectCommands => Sys2Proof.Machine.execDeferredDirectCommands s
  | .switchBank h => Sys2Proof.Machine.execSwitchBank h s
  | .vesselWrite h w => Sys2Proof.Machine.execVesselWrite h w s
  | .manualTransfer h src dst vol => Sys2Proof.Machine.execManualTransfer h src dst vol s
  | .cipStart h vessel => Sys2Proof.Machine.execCipStart h vessel s
  | .cipEnd h vessel => Sys2Proof.Machine.execCipEnd h vessel s
  | .batchOpen h filler product cat => Sys2Proof.Machine.execBatchOpen h filler product cat s
  | .batchClose h filler => Sys2Proof.Machine.execBatchClose h filler s
  | .suspectKey h key => Sys2Proof.Machine.execSuspectKey h key s
  | .suspectSample h sample => Sys2Proof.Machine.execSuspectSample h sample s
  | .suspectFarm h farm => Sys2Proof.Machine.execSuspectFarm h farm s
  | .releaseKey h key => Sys2Proof.Machine.execReleaseKey h key s
  | .releaseSample h sample => Sys2Proof.Machine.execReleaseSample h sample s
  | .releaseFarm h farm => Sys2Proof.Machine.execReleaseFarm h farm s
  | .holdRelease h arg => Sys2Proof.Machine.execHoldRelease h arg s
  | .meterEntry => Sys2Proof.Machine.execMeterEntry s
  | .valveEntry => Sys2Proof.Machine.execValveEntry s
  | .manifestEntry => Sys2Proof.Machine.execManifestEntry s
  | .compSelectEntry => Sys2Proof.Machine.execCompSelectEntry s
  | .compDoneEntry => Sys2Proof.Machine.execCompDoneEntry s
  | .compRejectEntry => Sys2Proof.Machine.execCompRejectEntry s
  | .cipStartEntry => Sys2Proof.Machine.execCipStartEntry s
  | .cipEndEntry => Sys2Proof.Machine.execCipEndEntry s
  | .batchOpenEntry => Sys2Proof.Machine.execBatchOpenEntry s
  | .batchCloseEntry => Sys2Proof.Machine.execBatchCloseEntry s
  | .cartonEntry => Sys2Proof.Machine.execCartonEntry s
  | .dispatchEntry => Sys2Proof.Machine.execDispatchEntry s
  | .idleCloseEntry => Sys2Proof.Machine.execIdleCloseEntry s
  | .gapEntry => Sys2Proof.Machine.execGapEntry s
  | .switchBankEntry => Sys2Proof.Machine.execSwitchBankEntry s
  | .vesselWriteEntry => Sys2Proof.Machine.execVesselWriteEntry s
  | .manualTransferEntry => Sys2Proof.Machine.execManualTransferEntry s
  | .suspectKeyEntry => Sys2Proof.Machine.execSuspectKeyEntry s
  | .suspectSampleEntry => Sys2Proof.Machine.execSuspectSampleEntry s
  | .suspectFarmEntry => Sys2Proof.Machine.execSuspectFarmEntry s
  | .releaseKeyEntry => Sys2Proof.Machine.execReleaseKeyEntry s
  | .releaseSampleEntry => Sys2Proof.Machine.execReleaseSampleEntry s
  | .releaseFarmEntry => Sys2Proof.Machine.execReleaseFarmEntry s
  | .holdReleaseEntry => Sys2Proof.Machine.execHoldReleaseEntry s
  | .plantClockAdvance => Sys2Proof.Machine.execPlantClockAdvance s

end Sys2Proof.Machine
end

