-- ==== Sys2Proof/Safety.lean ====
section
/-! DEFINITION. The invariants of the part, each a property of one state, and the relations in
which statements say what an operation changes and what it leaves alone. -/

namespace Sys2Proof.Machine

open Sys2Proof

/-! ## Invariants of one state -/

/-- The Plant Clock reads a day, a second and a hundredth of the ranges of R178. -/
def ClockInRange (s : State) : Prop :=
  s.mgmt.clock.day ≤ 99999 ∧ s.mgmt.clock.sec ≤ 86399 ∧ s.mgmt.clock.hund ≤ 99

/-- Every meter's scale denominator is at least 1 and its residue stays below it (R22, R25). -/
def ResiduesBelowDen (s : State) : Prop :=
  ∀ m, m < 48 → 1 ≤ (s.lin.meter m).den ∧ (s.lin.meter m).residue < (s.lin.meter m).den

/-- Every meter's route is the lowest-indexed entry of the active bank for it that holds (R83). -/
def RoutesResolved (s : State) : Prop :=
  ∀ m, m < 48 → (s.lin.meter m).route = s.lin.resolve m

/-- The queue holds at most 63 ordinary entries and one GAP entry (R155). -/
def QueueBounded (s : State) : Prop :=
  ordinaryCount s.evq ≤ Config.ordinaryMax ∧ (s.evq.filter Entry.isGap).length ≤ 1

/-- A port within its bounds: 12 forwarded frames, 8 places for injected frames and reservations, a
deferral count of at most 4, and empty buffers while the link is down (R145 to R148, R174). -/
def PortState.bounded (x : PortState) : Prop :=
  x.fwd.length ≤ Config.forwardMax ∧ x.inj.length + x.reservations ≤ Config.injectedMax ∧
  x.deferral ≤ Config.deferralMax ∧ (x.linkUp = false → x.fwd = [] ∧ x.inj = [])

/-- The waiting commands that a port's reservations stand for (R174). -/
def State.waitingOn (s : State) (p : Port) : Nat :=
  (s.waiting.filter (fun w => w.port == p)).length

/-- Both ports are within their bounds, and each holds one reservation for each command received
on it that waits for the engine (R174). -/
def PortsBounded (s : State) : Prop :=
  ∀ p, (s.port p).bounded ∧ (s.port p).reservations = s.waitingOn p

/-- Unreleased records stand at consecutive sequences from the oldest on, the written sequence
follows the last of them, and what is written is published (R163, R164). -/
def Journal.ordered (j : Journal) : Prop :=
  (∀ k, ∀ h : k < j.records.length, (j.records[k]).seq = j.oldest + BitVec.ofNat 32 k) ∧
  j.written = j.oldest + BitVec.ofNat 32 j.records.length ∧ j.published = j.written

/-- A batch code is of 18 digits and leaves remainder 1 by 97, or the batch is indefinite
(R105, R106). -/
def Batch.codeSound (b : Batch) : Prop :=
  b.indefinite = true ∨ b.code % 97 = 1

/-- A share list obeys R6: at most 12 shares, no key twice, no share of volume 0. -/
def ListSound (l : List Share) : Prop :=
  l.length ≤ Config.shareMax ∧ (keysOf l).Nodup ∧ ∀ x ∈ l, 0 < x.vol

/-- The journal stays within its ring (R163, R166): unreleased records stand in order and fill at most
4096 places, an operation in flight finds 80 of them free, and no Recent Batch ring holds more than 8
records (R99). -/
structure JournalSound (s : State) : Prop where
  ordered : s.jrn.ordered
  held : s.jrn.records.length ≤ Config.journalSize
  room : s.inFlight ≠ none → s.jrn.records.length + Config.journalReserve ≤ Config.journalSize
  rings : ∀ f, f < 8 → (s.lin.filler f).ring.length ≤ Config.ringMax

/-! ## What an operation changes -/

/-- Records written one after another at one time with one tag. -/
def Journal.writeAll (j : Journal) (time : TimeStamp) (tag : Nat) (ps : List Payload) : Journal :=
  ps.foldl (fun j p => j.write time tag p) j

/-- The HOLD records of a hold evaluation between two states of the unit, fillers 0 to 7 and then the
dispatch hold: one of action RELEASE for each hold of `released`, one of action EVALUATE for each other
whose state changed, with its state before and after and, for a filler, the serial of the open batch
(R137 to R139). -/
def holdRecords (before after : HoldUnit) (l : Lineage) (released : List Nat) : List Payload :=
  ((List.range 9).filter (fun i => decide (i ∈ released ∨ before.view i ≠ after.view i))).map (fun i =>
    .hold
      { hold := if i < 8 then i else 0xFD
        action := if i ∈ released then .release else .evaluate
        result := .done, before := before.view i, after := after.view i
        batch := if i < 8 then (l.filler i).openBatch.map Batch.serial else none })

/-- A port gained code notices only, each into a free place of a queue whose link is up (R104). -/
def PortState.notified (x y : PortState) : Prop :=
  ∃ ns : List Notice, y = { x with inj := x.inj ++ ns.map Injected.notice } ∧
    (ns ≠ [] → x.linkUp = true ∧ x.inj.length + ns.length + x.reservations ≤ Config.injectedMax)

/-- Records among which stands the BATCH record of a batch whose code notice was sent: it is neither
indefinite nor unsent (R104). -/
def Announced (ps : List Payload) : Prop :=
  ∃ b evicted, Payload.batchOpened b evicted ∈ ps ∧ b.indefinite = false ∧ b.unsent = false

/-- What every engine operation leaves alone: RESET, the decoder, the queue, the waiting commands,
the Management unit, the policies and the Output Map, the Category Merge Table and the Route Banks.
The journal gains records of one time and one tag; the ports gain code notices at most, and none unless a
batch is announced. -/
structure OpFrame (tag : Nat) (s t : State) : Prop where
  resetAsserted : t.resetAsserted = s.resetAsserted
  dec : t.dec = s.dec
  evq : t.evq = s.evq
  inFlight : t.inFlight = s.inFlight
  waiting : t.waiting = s.waiting
  mgmt : t.mgmt = s.mgmt
  pending : t.pending = s.pending
  policy : t.hold.policy = s.hold.policy
  suspectOn : t.hold.suspectOn = s.hold.suspectOn
  uncertainOn : t.hold.uncertainOn = s.hold.uncertainOn
  mismatchOn : t.hold.mismatchOn = s.hold.mismatchOn
  outMap : t.hold.outMap = s.hold.outMap
  shown : t.hold.shown = s.hold.shown
  catTab : t.lin.catTab = s.lin.catTab
  bankA : t.lin.bankA = s.lin.bankA
  bankB : t.lin.bankB = s.lin.bankB
  jrn : ∃ ps, t.jrn = s.jrn.writeAll s.now tag ps ∧ ∀ p, t.port p ≠ s.port p → Announced ps
  ports : ∀ p, (s.port p).notified (t.port p)

/-- What every operation but METER, VALVE and SWITCH_BANK leaves alone besides. -/
structure SameRouting (l k : Lineage) : Prop where
  meters : k.meters = l.meters
  clusters : k.clusters = l.clusters
  active : k.active = l.active

/-- Two lineage states are equal but for the fillers' pending idle closes, which the engine clears
when it takes an entry (R158). -/
def SameButIdle (l k : Lineage) : Prop :=
  ∃ idle : Nat → Option (Nat × TimeStamp),
    k = { l with fillers := l.fillers.mapIdx (fun f x => { x with pendingIdle := idle f }) }

/-- The engine operation on an entry of a tag, taken in `s`, ended in `t`: its rule left the lineage
state `l` and the hold unit `h` and wrote the records `ps`; the hold evaluation of R137 then showed every
hold's new state and wrote the HOLD records of what changed and of the holds `released`, which only a
HOLD_RELEASE names (R139); the records `after` followed; all was published (R164). The
entry in flight was then given up, the queue stood as it was, and the engine took the next entry if it
might (R159). Nothing else changed, but for the ports' code notices, of which there
are none unless the operation opened a batch and sent its code. The records carry one time, that of
the row (log 28). -/
structure OpResult (s t : State) (tag : Nat) (l : Lineage) (h : HoldUnit) (ps after : List Payload)
    (released : List Nat := []) : Prop where
  resetAsserted : t.resetAsserted = s.resetAsserted
  ports : ∀ p, (s.port p).notified (t.port p)
  notices : ∀ p, t.port p ≠ s.port p → Announced ps
  dec : t.dec = s.dec
  waiting : t.waiting = s.waiting
  ended : t = State.settle { t with evq := s.evq, inFlight := none, lin := l }
  hold : { t.hold with shown := h.shown } = h
  views : ∀ i, i < 9 → t.hold.view i = t.holdView i
  jrn : t.jrn =
    (s.jrn.writeAll s.now tag (ps ++ holdRecords s.hold t.hold l released ++ after)).publish
  mgmt : t.mgmt = s.mgmt
  pending : t.pending = s.pending

/-! ## Raising a condition (R130) -/

/-- The counter of a kind counted and the kind latched on some holds. -/
def HoldUnit.raised (h : HoldUnit) (row : Nat) (targets : List Nat) : HoldUnit :=
  (h.count row).latchAll row targets

/-- The CONDITION record of a raise: the counter after the count, the policy row's target, and the
holds it latches, each with whether the kind was new there (R134). That those of an ALL_FILLERS raise
stand in ascending filler index is the model's choice (log 17). -/
def State.conditionRec (s : State) (filler : Option Nat) (c : CondVals) : ConditionRec :=
  { vals := c, counter := vget (s.hold.count c.row).counters c.row 0, filler := filler,
    target := (vget s.hold.policy c.row {}).target,
    touched := (s.lin.latchTargets (vget s.hold.policy c.row {}).target filler).map
      (fun i => (i, !(s.hold.latch i).has c.row)) }

/-- The Condition and Hold unit after a raise in a state. -/
def State.raisedHold (s : State) (filler : Option Nat) (c : CondVals) : HoldUnit :=
  s.hold.raised c.row (s.lin.latchTargets (vget s.hold.policy c.row {}).target filler)

/-- The records of a raise: one where the row's report is yes, else none. -/
def State.raisedRecs (s : State) (filler : Option Nat) (c : CondVals) : List Payload :=
  if (vget s.hold.policy c.row {}).report then [.condition (s.conditionRec filler c)] else []

/-- What a record says was raised; none in a record that is no CONDITION record. -/
def Payload.raisedVals : Payload → Option CondVals
  | .condition r => some r.vals
  | _ => none

/-- The conditions of a list whose rows report, in order (R130, R132). -/
def HoldUnit.reported (h : HoldUnit) (cs : List CondVals) : List CondVals :=
  cs.filter (fun c => (vget h.policy c.row {}).report)

/-! ## Issued serials -/

/-- A serial is the first from a counter on, round from 268,435,455 to 1, that is not taken (R50, R100). -/
def FirstFreeSerial (taken : Nat → Prop) (counter serial : Nat) : Prop :=
  ∃ k, serial = (counter - 1 + k) % 268435455 + 1 ∧ ¬ taken serial ∧
    ∀ j, j < k → taken ((counter - 1 + j) % 268435455 + 1)

/-! ## Portion lists -/

/-- Portions in their order without those of volume 0, and behind them one of U-0 that gathers all U-0
volume and `extra`, where that is above 0 (R28). -/
def placed (l : List Share) (extra : Nat) : List Share :=
  let u := ((l.filter (fun y => y.key = .unknown)).map Share.vol).sum + extra
  l.filter (fun y => y.key ≠ .unknown ∧ y.vol ≠ 0) ++ (if u = 0 then [] else [⟨.unknown, u⟩])

/-- The merge of a portion list into a list: a share whose key is among the portions grows by them in its
place, and the portions of other keys stand behind, in their order (R33). -/
def joined (l ps : List Share) : List Share :=
  l.map (fun y => { y with vol := y.vol + ((ps.filter (fun p => p.key = y.key)).map Share.vol).sum }) ++
    ps.filter (fun p => p.key ∉ keysOf l)

/-! ## The command rows -/

/-- The header and the command of a row that stands for a command frame. -/
def commandOf : Instr → Option (CmdHdr × Command)
  | .status h => some (h, .atOnce .status)
  | .loadMatch h i e => some (h, .atOnce (.loadMatch i e))
  | .loadFilter h f => some (h, .atOnce (.loadFilter f))
  | .loadOverride h k o => some (h, .atOnce (.loadOverride k o))
  | .loadVessel h i c => some (h, .between (.loadVessel i c))
  | .loadMeter h i w n d j => some (h, .between (.loadMeter i w n d j))
  | .loadRoute h r => some (h, .between (.loadRoute r))
  | .loadCategory h l => some (h, .between (.loadCategory l))
  | .loadPolicy h p => some (h, .between (.loadPolicy p))
  | .loadOutput h a b c d => some (h, .between (.loadOutput a b c d))
  | .setManagers h a b => some (h, .atOnce (.setManagers a b))
  | .setPlant h n => some (h, .between (.setPlant n))
  | .setSerials h a b c => some (h, .between (.setSerials a b c))
  | .setClock h d x c => some (h, .between (.setClock d x c))
  | .readVessel h i => some (h, .between (.readVessel i))
  | .readKey h k => some (h, .between (.readKey k))
  | .readBatch h f p => some (h, .between (.readBatch f p))
  | .readBay h i => some (h, .between (.readBay i))
  | .readMeter h i => some (h, .between (.readMeter i))
  | .journalFetch h n => some (h, .atOnce (.journalFetch n))
  | .journalRelease h n => some (h, .atOnce (.journalRelease n))
  | .clearEngine h => some (h, .clear)
  | .switchBank h => some (h, .queued .switchBank)
  | .vesselWrite h w => some (h, .queued (.vesselWrite w))
  | .manualTransfer h a b v => some (h, .queued (.manualTransfer a b v))
  | .cipStart h v => some (h, .queued (.cipStart v))
  | .cipEnd h v => some (h, .queued (.cipEnd v))
  | .batchOpen h f p c => some (h, .queued (.batchOpen f p c))
  | .batchClose h f => some (h, .queued (.batchClose f))
  | .suspectKey h k => some (h, .queued (.suspectKey k))
  | .suspectSample h n => some (h, .queued (.suspectSample n))
  | .suspectFarm h n => some (h, .queued (.suspectFarm n))
  | .releaseKey h k => some (h, .queued (.releaseKey k))
  | .releaseSample h n => some (h, .queued (.releaseSample n))
  | .releaseFarm h n => some (h, .queued (.releaseFarm n))
  | .holdRelease h a => some (h, .queued (.holdRelease a))
  | _ => none

/-- The row that carries out an entry of a kind (R159). -/
def EntryVal.row : EntryVal → Instr
  | .meter .. => .meterEntry
  | .valve .. => .valveEntry
  | .manifest _ => .manifestEntry
  | .compSelect .. => .compSelectEntry
  | .compDone _ => .compDoneEntry
  | .compReject .. => .compRejectEntry
  | .cipStart _ => .cipStartEntry
  | .cipEnd _ => .cipEndEntry
  | .batchOpen .. => .batchOpenEntry
  | .batchClose _ => .batchCloseEntry
  | .carton .. => .cartonEntry
  | .dispatch .. => .dispatchEntry
  | .idleClose .. => .idleCloseEntry
  | .gap _ => .gapEntry
  | .switchBank => .switchBankEntry
  | .vesselWrite _ => .vesselWriteEntry
  | .manualTransfer .. => .manualTransferEntry
  | .suspectKey _ => .suspectKeyEntry
  | .suspectSample _ => .suspectSampleEntry
  | .suspectFarm _ => .suspectFarmEntry
  | .releaseKey _ => .releaseKeyEntry
  | .releaseSample _ => .releaseSampleEntry
  | .releaseFarm _ => .releaseFarmEntry
  | .holdRelease _ => .holdReleaseEntry

/-- The operation of an entry's kind, before the hold evaluation. -/
def TakenEntry.operation (e : TakenEntry) (s : State) : OpEnd :=
  match e.val with
  | .meter m t => { st := s.opMeter e.tag m t }
  | .valve c v => { st := s.opValve e.tag c v }
  | .manifest i => { st := s.opManifest e.tag e.takenAt i }
  | .compSelect b t c => { st := s.opCompSelect e.tag b t c }
  | .compDone b => { st := s.opCompDone e.tag b }
  | .compReject b t c => { st := s.opCompReject e.tag b t c }
  | .cipStart v => { st := s.opCipStart e.tag v }
  | .cipEnd v => { st := s.opCipEnd e.tag v }
  | .batchOpen f p c => { st := s.opBatchOpen e.tag e.command f p c }
  | .batchClose f => { st := s.opBatchClose e.tag f }
  | .carton f n => { st := s.opCarton f n }
  | .dispatch c n k => { st := s.opDispatch e.tag c n k }
  | .idleClose f n x => { st := s.opIdleClose e.tag f n x }
  | .gap n => { st := s.opGap e.tag n }
  | .switchBank => { st := s.opSwitchBank e.tag }
  | .vesselWrite w => { st := s.opVesselWrite e.tag w }
  | .manualTransfer a b v => { st := (s.opManual e.tag a b v).1, after := (s.opManual e.tag a b v).2 }
  | .suspectKey k => { st := s.opMark e.tag false (.key k) }
  | .suspectSample n => { st := s.opMark e.tag false (.sample n) }
  | .suspectFarm n => { st := s.opMark e.tag false (.farm n) }
  | .releaseKey k => { st := s.opMark e.tag true (.key k) }
  | .releaseSample n => { st := s.opMark e.tag true (.sample n) }
  | .releaseFarm n => { st := s.opMark e.tag true (.farm n) }
  | .holdRelease a =>
    { st := (s.opHoldRelease e.tag a).1, released := (s.opHoldRelease e.tag a).2 }

/-- The row that a command frame stands for, from its header, its code and its argument bytes: the
layouts of R183, whose open places log 15 fixes, the kind field's constant width, which LOAD_FILTER does
not send, among them. None where no layout fits. -/
def frameRow (h : CmdHdr) (code : Nat) (l : List Byte) : Option Instr :=
  let n := fun off width => beNat ((l.drop off).take width)
  let word := fun off => BitVec.ofNat 16 (n off 2)
  let key := fun off => RawKey.mk (n off 1 / 16) (n off 4 % 2 ^ 28)
  let cond := fun off => RouteCond.mk (n off 1) (word (off + 1)) (word (off + 3))
  let cls := ItemClass.ofCode (n 7 1)
  let unitAt := fun c => if c = ItemClass.manifest then unitOfByte (n 24 1) else some .cl
  let late := fun c k => if c = ItemClass.manifest ∧ 4 ≤ k then 1 else 0
  match code, l.length with
  | 0x01, 0 => some (.status h)
  | 0x10, len =>
    match cls, flagOfByte (n 1 1), cls.bind unitAt with
    | some c, some valid, some u =>
      if len = 12 + 3 * c.widths.length + late c 4 then
        some (.loadMatch h (n 0 1)
          { valid := valid, base := n 2 2, limit := n 4 2, kind := n 6 1, cls := c, objBase := n 8 1,
            count := n 9 1, stride := n 10 2, volUnit := u
            fields := (List.range c.widths.length).map (fun k =>
              ⟨n (12 + 3 * k + late c k) 2, n (14 + 3 * k + late c k) 1⟩) })
      else none
    | _, _, _ => none
  | 0x11, 7 => some (.loadFilter h ⟨n 0 2, n 2 2, n 4 1, n 5 2⟩)
  | 0x12, 7 => (flagOfByte (n 1 1)).map (fun on => .loadOverride h (n 0 1) ⟨on, n 2 1, word 3, word 5⟩)
  | 0x13, 2 => if n 1 1 = 0 then some (.loadVessel h (n 0 1) .unconfigured) else none
  | 0x13, 6 => if n 1 1 = 1 then some (.loadVessel h (n 0 1) (.store (n 2 4))) else none
  | 0x13, 4 => if n 1 1 = 2 then some (.loadVessel h (n 0 1) (.bay (n 2 1) (n 3 1))) else none
  | 0x13, 15 =>
    if n 1 1 = 3 then
      some (.loadVessel h (n 0 1) (.filler (n 2 1) (n 3 1) (n 4 6) (n 10 1) (n 11 2) (n 13 2)))
    else none
  | 0x14, 10 => some (.loadMeter h (n 0 1) (n 1 1) (n 2 2) (n 4 2) (n 6 4))
  | 0x15, 17 =>
    some (.loadRoute h
      { bank := n 0 1, index := n 1 1, valid := n 2 1, meter := n 3 1, src := n 4 1, dst := n 5 1,
        count := n 6 1, c1 := cond 7, c2 := cond 12 })
  | 0x16, 64 => some (.loadCategory h (l.map BitVec.toNat))
  | 0x17, 3 =>
    some (.loadPolicy h
      (if 20 ≤ n 0 1 ∧ n 0 1 ≤ 22 then .content (n 0 1 - 20) (n 1 1)
       else .cond (n 0 1) (n 1 1) (n 2 1)))
  | 0x18, 4 => some (.loadOutput h (n 0 1) (n 1 1) (n 2 1) (n 3 1))
  | 0x20, 12 => some (.setManagers h (n 0 6) (n 6 6))
  | 0x21, 2 => some (.setPlant h (n 0 2))
  | 0x22, 12 => some (.setSerials h (n 0 4) (n 4 4) (n 8 4))
  | 0x23, 9 => some (.setClock h (n 0 4) (n 4 4) (n 8 1))
  | 0x30, 1 => some (.readVessel h (n 0 1))
  | 0x31, 4 => some (.readKey h (key 0))
  | 0x32, 2 => some (.readBatch h (n 0 1) (n 1 1))
  | 0x33, 1 => some (.readBay h (n 0 1))
  | 0x34, 1 => some (.readMeter h (n 0 1))
  | 0x38, 4 => some (.journalFetch h (BitVec.ofNat 32 (n 0 4)))
  | 0x39, 4 => some (.journalRelease h (BitVec.ofNat 32 (n 0 4)))
  | 0x3F, 0 => some (.clearEngine h)
  | 0x40, 0 => some (.switchBank h)
  | 0x41, len =>
    if 4 ≤ len ∧ len = 4 + 9 * n 3 1 then
      some (.vesselWrite h
        { vessel := n 0 1, cat := n 1 1, uncertain := n 2 1
          entries := (List.range (n 3 1)).map (fun k =>
            { key := key (4 + 9 * k), cat := n (8 + 9 * k) 1, vol := n (9 + 9 * k) 4 }) })
    else none
  | 0x42, 6 => some (.manualTransfer h (n 0 1) (n 1 1) (n 2 4))
  | 0x43, 1 => some (.cipStart h (n 0 1))
  | 0x44, 1 => some (.cipEnd h (n 0 1))
  | 0x45, 4 => some (.batchOpen h (n 0 1) (n 1 2) (n 3 1))
  | 0x46, 1 => some (.batchClose h (n 0 1))
  | 0x48, 4 => some (.suspectKey h (key 0))
  | 0x49, 4 => some (.suspectSample h (n 0 4))
  | 0x4A, 4 => some (.suspectFarm h (n 0 4))
  | 0x4C, 4 => some (.releaseKey h (key 0))
  | 0x4D, 4 => some (.releaseSample h (n 0 4))
  | 0x4E, 4 => some (.releaseFarm h (n 0 4))
  | 0x50, 1 => some (.holdRelease h (n 0 1))
  | _, _ => none

/-- The engine is out of RESET with an entry in flight (R159). -/
def Taken (s : State) (e : TakenEntry) : Prop := s.resetAsserted = false ∧ s.inFlight = some e

/-- A command frame passes steps 1 to 4 of R173: its port receives, its version is 1, a place for
the reply is free, its source may send commands, and its form is right. -/
structure Passes (s : State) (h : CmdHdr) (c : Command) : Prop where
  receives : s.receives h.port = true
  version : h.version = Config.version
  room : (s.port h.port).room = true
  permits : s.mgmt.permits h.source = true
  form : formOk h c = true

/-- The port after a command received on it has been answered at once (R174). -/
def PortState.answered (x : PortState) (r : Reply) : PortState :=
  { x with inj := x.inj ++ [.reply r] }

/-! ## Bays, batches and marks -/

/-- The COMPARTMENT record of a slot's close (R69). -/
def State.compartmentRec (s : State) (v bay k : Nat) (reason : SlotReason) : Payload :=
  let c := (s.lin.ring bay).slot k
  .compartment
    { vessel := v, bay := bay, slot := k, tanker := c.tanker, comp := c.comp, openTime := c.openTime,
      manifest := (c.shares.map CompShare.manifest).sum, drawn := c.drawn,
      remaining := (c.shares.map CompShare.remaining).sum, reason := reason, shares := c.shares }

/-- Slot `k` of the bay `v` closed (R69): its keys released, the slot EMPTY, the bay's suspect flag that
of the ring. Where `next` names a slot it becomes DISCHARGING and the pointer moves to it (R70). Nothing
else of the ring and nothing else of the lineage state changes. -/
structure SlotClosed (l m : Lineage) (v bay k : Nat) (next : Option Nat) : Prop where
  colls : m.colls = (l.releaseAll (((l.ring bay).slot k).shares.map CompShare.key)).colls
  blends : m.blends = (l.releaseAll (((l.ring bay).slot k).shares.map CompShare.key)).blends
  slots : ∀ j, j < 6 → (m.ring bay).slot j =
    if j = k then {} else if some j = next then { (l.ring bay).slot j with tag := .discharging }
    else (l.ring bay).slot j
  fill : (m.ring bay).fill = (l.ring bay).fill
  disch : (m.ring bay).disch = next.getD (l.ring bay).disch
  rings : ∀ b, b ≠ bay → m.ring b = l.ring b
  vessel : m.vessel v = { l.vessel v with suspect := m.ringSuspect (m.ring bay) }
  vessels : ∀ u, u ≠ v → m.vessel u = l.vessel u
  others : m = { l with colls := m.colls, blends := m.blends, rings := m.rings, vessels := m.vessels }

/-- The suspect command an entry stands for: whether it releases, and its argument (R121). -/
def EntryVal.markOf : EntryVal → Option (Bool × MarkArg)
  | .suspectKey k => some (false, .key k)
  | .suspectSample n => some (false, .sample n)
  | .suspectFarm n => some (false, .farm n)
  | .releaseKey k => some (true, .key k)
  | .releaseSample n => some (true, .sample n)
  | .releaseFarm n => some (true, .farm n)
  | _ => none

/-- A batch in a ring after its close (R110). -/
def Batch.closedAs (b : Batch) (now : TimeStamp) (reason : CloseReason) : Batch :=
  { b with closeTime := some now, reason := reason }

/-! ## The lineage state as a whole -/

/-- The keys of every list: vessels, compartment slots, batches and blend members (R52). -/
def Lineage.listedKeys (l : Lineage) : List Key :=
  l.vessels.toList.flatMap (fun v => keysOf v.list) ++
  l.rings.toList.flatMap (fun r => r.slots.toList.flatMap (fun c => c.shares.map CompShare.key)) ++
  l.fillers.toList.flatMap (fun f => f.ring.flatMap (fun b => keysOf b.list)) ++
  l.blends.flatMap (fun b => keysOf b.2.members)

/-- A list that obeys R6 and stays within the content ceiling (R7). -/
def ListBounded (x : List Share) : Prop := ListSound x ∧ total x ≤ Config.contentCeiling

/-- An entry of a Route Bank that is valid names vessels of the kinds R82 allows: it draws from a STORE or
a BAY and delivers into a STORE or a FILLER. -/
def Lineage.routable (l : Lineage) (e : RouteEntry) : Prop :=
  e.valid = true → e.src < 64 ∧ e.dst < 64 ∧
    ((l.vessel e.src).kind = .store ∨ (l.vessel e.src).kind = .bay) ∧
    ((l.vessel e.dst).kind = .store ∨ (l.vessel e.dst).kind = .filler)

/-- The lineage state hangs together: every resident record is counted as often as lists carry its key,
and at least once; every listed key is U-0 or resident (R52 to R54); lists are bounded; a STORE that is
not HOLDING and a BAY that is CLEANING are empty (R5); a ring or a filler that no vessel carries is empty
(R4, R79); and the banks name vessels of the kinds R82 allows. -/
structure LineageSound (l : Lineage) : Prop where
  collSerials : (l.colls.map (fun c => c.2.serial)).Nodup
  blendSerials : (l.blends.map (fun b => b.2.serial)).Nodup
  collRoom : l.colls.length ≤ Config.collTableSize
  blendRoom : l.blends.length ≤ Config.blendTableSize
  collRefs : ∀ c ∈ l.colls,
    c.2.refs = l.listedKeys.count (.coll c.2.serial) ∧ 0 < c.2.refs
  blendRefs : ∀ b ∈ l.blends,
    b.2.refs = l.listedKeys.count (.blend b.2.serial) ∧ 0 < b.2.refs
  resident : ∀ k ∈ l.listedKeys, k = .unknown ∨ l.resident k = true
  stores : ∀ v, v < 64 → (l.vessel v).kind = .store → ListBounded (l.vessel v).list ∧
    ((l.vessel v).state ≠ .holding → (l.vessel v).list = []) ∧
    (l.vessel v).capacity ≤ Config.contentCeiling
  others : ∀ v, v < 64 → (l.vessel v).kind ≠ .store → (l.vessel v).list = []
  batches : ∀ f, f < 8 → ∀ b ∈ (l.filler f).ring, ListBounded b.list
  openBatch : ∀ f, f < 8 → (l.filler f).state = .batchOpen → (l.filler f).ring ≠ []
  slots : ∀ b, b < 8 → ∀ k, k < 6 → ((l.ring b).slot k).tag = .empty →
    ((l.ring b).slot k).shares = []
  bays : ∀ b, b < 8 → (l.ring b).content ≤ Config.contentCeiling
  cleaning : ∀ v, v < 64 → (l.vessel v).kind = .bay → (l.vessel v).state = .cleaning →
    (l.ring (l.vessel v).bayIndex).occupied = []
  bayIndices : ∀ u v, u < 64 → v < 64 → (l.vessel u).kind = .bay → (l.vessel v).kind = .bay →
    (l.vessel u).bayIndex = (l.vessel v).bayIndex → u = v
  freeRings : ∀ b, b < 8 → l.bayVessel b = none → (l.ring b).occupied = []
  freeFillers : ∀ f, f < 8 → l.fillerVessel f = none → (l.filler f).ring = []
  indices : ∀ v, v < 64 → (l.vessel v).bayIndex < 8 ∧ (l.vessel v).fillerIndex < 8
  banks : ∀ i, i < 128 → l.routable (vget l.bankA i {}) ∧ l.routable (vget l.bankB i {})

end Sys2Proof.Machine
end

