-- ==== Sys2Proof/Certificates/Slice0/Obligations.lean ====
section
/-! DEFINITION. The statements for the provers. Those that rest on a choice of the model (a log entry)
say so in their docstring and in OBLIGATIONS.json. -/

open Sys2Proof Sys2Proof.Machine

/-! ## The step -/

/-- A step carries out the command at the front of the queue on the rest of it; with no command waiting
the block idles. Both are the model's choice of what a step is (log 1). -/
def Obligations.StepRunsFrontCommandOrIdles : Prop :=
  (∀ (c : Instr) (rest : List Instr) (s : State),
    step { s with pending := c :: rest } = exec c { s with pending := rest }) ∧
  (∀ s : State, s.pending = [] → step s = .next s)

/-! ## Reset -/

/-- RESET puts every block at its power-on values, whatever the state it meets. The queue of commands
not yet taken is the model's own and stays (log 1), and so are the output field that holds the frame last
sent, none here (log 9), and the count of hundredths that idle timers are measured on, 0 here (log 12);
the strap value stands at 0 until the release latches one, which is the model's choice (log 5). At the
release of RESET the strap value on the ADDR pins is latched and with it the station address; with RESET
not asserted that row changes nothing (log 3). -/
def Obligations.ResetRestoresEverythingAndLatchesStrap : Prop :=
  (∀ s : State, ∃ t, exec .powerOnReset s = .next t ∧ t.resetAsserted = true ∧ t.pending = s.pending ∧
    (∀ p, t.port p = { linkUp := false, fwd := [], inj := [], deferral := 0, reservations := 0,
                       rxErrors := 0, fwdSent := 0, fwdDrops := 0, linkLoss := 0, lastSent := none }) ∧
    t.dec.filter = ⟨0, 0, 1, 0⟩ ∧ (∀ e ∈ t.dec.matchTable.toList, e.valid = false) ∧
    (∀ o ∈ t.dec.overrides.toList, o.enable = false) ∧ (∀ c, t.dec.lastValve c = none) ∧
    (t.dec.framesDecoded, t.dec.unmatched, t.dec.shortTelegrams, t.dec.itemsOffered,
      t.dec.readingsDropped) = (0, 0, 0, 0, 0) ∧
    t.evq = [] ∧ t.inFlight = none ∧ t.waiting = [] ∧ t.engine = .idle ∧
    (∀ v, v < 64 → t.lin.vessel v =
      { kind := .unconfigured, capacity := 0, bayIndex := 0, tolerance := 0, fillerIndex := 0,
        fillerNumber := 0, coderAddr := 0, coderPort := .a, idleTimeout := 0, autoProduct := 0,
        state := .unseeded, list := [], cat := none, uncertain := false, suspect := false }) ∧
    (∀ a b : Fin 8, t.lin.merge (some a) (some b) = some (min a b)) ∧
    (∀ m, m < 48 → t.lin.meter m =
      { configured := false, width := 32, num := 1, den := 1, jump := 0, ref := 0, refValid := false,
        residue := 0, route := none, seg := { start := ⟨0, 0, 0⟩, vol := 0, flags := {} } }) ∧
    t.lin.colls = [] ∧ t.lin.blends = [] ∧ t.lin.collNext = 1 ∧ t.lin.blendNext = 1 ∧
    t.lin.batchNext = 1 ∧
    (∀ b, b < 8 → (t.lin.ring b).occupied = [] ∧ (t.lin.ring b).fill = 0 ∧ (t.lin.ring b).disch = 0) ∧
    (∀ c ∈ t.lin.clusters.toList, c = { value := 0, seen := false }) ∧
    (∀ e ∈ t.lin.bankA.toList ++ t.lin.bankB.toList, e.valid = false) ∧ t.lin.active = .a ∧
    (∀ f, f < 8 → t.lin.filler f =
      { state := .idle, lastCarton := 0, seen := false, seq := 1, lastFlow := ⟨0, 0, 0⟩,
        timer := none, pendingIdle := none, ring := [] }) ∧
    t.lin.farms = [] ∧
    (∀ k, k < 20 → vget t.hold.policy k {} =
      if k = 13 ∨ k = 14 then ⟨true, .namedFiller⟩ else if 17 ≤ k then ⟨true, .dispatch⟩
      else ⟨true, .noHold⟩) ∧
    (t.hold.suspectOn, t.hold.uncertainOn, t.hold.mismatchOn) = (true, true, true) ∧
    (∀ k, k < 20 → vget t.hold.counters k 1 = 0) ∧
    (∀ i, i < 9 → t.hold.latch i = 0 ∧ (t.hold.view i).asserted = false) ∧
    (∀ i, i < 12 → vget t.hold.outMap i {} = { source := .none, filler := 0, activeLow := false } ∧
      t.pin i = .highZ) ∧
    t.jrn = { oldest := 1, published := 1, written := 1, records := [] } ∧
    t.mgmt = { strap := 0, manager0 := 0, manager1 := 0, plant := 0, clock := ⟨0, 0, 0⟩,
               clockSet := false, elapsed := 0, versionDrops := 0, replyDrops := 0, refusals := 0 }) ∧
  ∀ (strap : BitVec 6) (s : State),
    (s.resetAsserted = true → ∃ t, exec (.resetRelease strap) s = .next t ∧
      t = { s with resetAsserted := false, mgmt := { s.mgmt with strap := strap } } ∧
      t.station = 0x024B57000000 + strap.toNat) ∧
    (s.resetAsserted = false → exec (.resetRelease strap) s = .next s)

/-- Every invariant of the model holds in the state right after reset. -/
def Obligations.InvariantsHoldAtReset : Prop :=
  ClockInRange State.reset ∧ ResiduesBelowDen State.reset ∧ RoutesResolved State.reset ∧
  QueueBounded State.reset ∧ PortsBounded State.reset ∧ JournalSound State.reset ∧
  LineageSound State.reset.lin

/-! ## The ports -/

/-- A link that comes up starts with empty buffers and a deferral count of 0 and keeps the port's
counters and reservations. A link that goes down discards the frames waiting in both of the port's
buffers, each counted as a link-loss discard; the replies of commands taken before are lost. Nothing
else changes. A port already UP, or already DOWN, is unchanged (log 3). -/
def Obligations.LinksStartEmptyAndDiscardWhatWaits : Prop :=
  ∀ (p : Port) (s : State), s.resetAsserted = false →
    ((s.port p).linkUp = false → exec (.linkUp p) s =
      .next (s.setPort p
        { s.port p with linkUp := true, fwd := [], inj := [], deferral := 0 })) ∧
    ((s.port p).linkUp = true → exec (.linkUp p) s = .next s) ∧
    ((s.port p).linkUp = true → ∃ t, exec (.linkDown p) s = .next t ∧
      t.port p = { s.port p with
        linkUp := false, fwd := [], inj := [], deferral := 0
        linkLoss := min ((s.port p).linkLoss + ((s.port p).fwd.length + (s.port p).inj.length))
          4294967295 } ∧
      t.port p.other = s.port p.other ∧
      t.waiting = s.waiting.map (fun w => if w.port = p then { w with lost := true } else w) ∧
      { t with portA := s.portA, portB := s.portB, waiting := s.waiting } = s) ∧
    ((s.port p).linkUp = false → exec (.linkDown p) s = .next s)

/-- A frame with a bad FCS or a bad length adds 1 to the receive-error counter of its port and nothing
else changes. A good frame that is no command frame goes into the forwarding buffer towards the other
port and is decoded; with that link DOWN it is discarded, counted, and decoded all the same; with the
buffer full it is dropped, counted and not decoded. The port at which the drop and the loss are counted
is the model's reading (log 11). -/
def Obligations.ReceivedFramesAreForwardedOrCounted : Prop :=
  ∀ (p : Port) (fcs : Bool) (f : Frame) (s : State), s.resetAsserted = false →
    (s.port p).linkUp = true →
    ((fcs = false ∨ f.length < 64 ∨ 1518 < f.length) → exec (.frameReceive p fcs f) s =
      .next (s.setPort p { s.port p with
        rxErrors := if (s.port p).rxErrors < 4294967295 then (s.port p).rxErrors + 1
                    else (s.port p).rxErrors })) ∧
    (fcs = true → 64 ≤ f.length → f.length ≤ 1518 →
      ¬ (Frame.dst f = s.station ∧ Frame.etherType f = 0x9C5A) →
      let x := s.port p.other
      (x.linkUp = true → x.fwd.length < 12 → exec (.frameReceive p fcs f) s =
        .next ((s.setPort p.other { x with fwd := x.fwd ++ [f] }).decodeFrame f)) ∧
      (x.linkUp = false → exec (.frameReceive p fcs f) s =
        .next ((s.setPort p.other { x with linkLoss := tick32 x.linkLoss }).decodeFrame f)) ∧
      (x.linkUp = true → 12 ≤ x.fwd.length → exec (.frameReceive p fcs f) s =
        .next (s.setPort p.other { x with fwdDrops := tick32 x.fwdDrops })))

/-- A good command frame for the part's station address, received on a port that is UP, does exactly what
the row does that its code and its arguments spell. Where they spell none, the checks of R173 run in their
order all the same: a wrong version is dropped and counted, a frame without a place for its reply is
dropped and counted, a source that is not permitted is refused and counted, and else the reply says
BAD_ARGUMENT with the code as received. Where R183 leaves a layout open it is log 15's, and a flag byte
that is neither 0 nor 1 spells no LOAD_MATCH and no LOAD_OVERRIDE (log 16). -/
def Obligations.CommandFramesActAsTheirRows : Prop :=
  ∀ (p : Port) (f : Frame) (s : State), s.resetAsserted = false → (s.port p).linkUp = true →
    64 ≤ f.length → f.length ≤ 1518 → Frame.dst f = s.station → Frame.etherType f = 0x9C5A →
    let payload := Frame.payload f
    let n := fun off width => beNat ((payload.drop off).take width)
    let h : CmdHdr :=
      { port := p, source := Frame.src f, version := n 0 1, tag := n 2 2, argLen := n 4 2,
        avail := payload.length - 6 }
    let args := (payload.drop 6).take h.argLen
    let refused := fun (st : Status) => (s.port p).answered ⟨h.source, n 1 1, h.tag, st, []⟩
    let full := 8 ≤ (s.port p).inj.length + (s.port p).reservations
    (∀ i, h.argLen ≤ h.avail → frameRow h (n 1 1) args = some i →
      exec (.frameReceive p true f) s = exec i s) ∧
    (h.avail < h.argLen ∨ frameRow h (n 1 1) args = none →
      (h.version ≠ 1 → exec (.frameReceive p true f) s =
        .next { s with mgmt := { s.mgmt with versionDrops := tick32 s.mgmt.versionDrops } }) ∧
      (h.version = 1 → full → exec (.frameReceive p true f) s =
        .next { s with mgmt := { s.mgmt with replyDrops := tick32 s.mgmt.replyDrops } }) ∧
      (h.version = 1 → ¬ full → s.mgmt.permits h.source = false →
        exec (.frameReceive p true f) s =
          .next (({ s with mgmt := { s.mgmt with refusals := tick32 s.mgmt.refusals } }).setPort p
            (refused .notPermitted))) ∧
      (h.version = 1 → ¬ full → s.mgmt.permits h.source = true →
        exec (.frameReceive p true f) s = .next (s.setPort p (refused .badArgument))))

/-- A frame that is no process frame yields nothing; one too short for its station or kind field counts
as a short telegram; one that no valid entry matches counts as unmatched; else the lowest-indexed
matching entry decodes it, item by item. An item with an extracted field beyond the payload counts as a
short telegram; any other item carries the big-endian numbers at its class's offsets plus its number times
the stride: a MANIFEST its volume in centilitres by the entry's unit, its sample id and its collection
time where they have a width, and a DISPATCH its code's bytes as received. It is counted and offered. A
VALVE item passes the overrides first, the highest enabled slot that forces a bit of its cluster giving
that bit; it is offered where it differs from the last value accepted for its cluster, which it becomes
when the queue accepts it. -/
def Obligations.ProcessFramesAreDecodedByTheirMatch : Prop :=
  ∀ (f : Frame) (s : State),
    let d := s.dec
    let bytes := Frame.payload f
    let station := numAt! bytes d.filter.stationOff d.filter.stationWidth
    let kind := numAt! bytes d.filter.kindOff 1
    let hit := fun k => k < 64 ∧ (vget d.matchTable k matchEntryReset).valid = true ∧
      (vget d.matchTable k matchEntryReset).base ≤ station ∧
      station ≤ (vget d.matchTable k matchEntryReset).limit ∧
      (vget d.matchTable k matchEntryReset).kind = kind
    let fits := d.filter.stationOff + d.filter.stationWidth ≤ bytes.length ∧
      d.filter.kindOff + 1 ≤ bytes.length
    (d.filter.etherType = 0 ∨ Frame.etherType f ≠ d.filter.etherType → s.decodeFrame f = s) ∧
    (d.filter.etherType ≠ 0 → Frame.etherType f = d.filter.etherType →
      (¬ fits → s.decodeFrame f = { s with dec := { d with shortTelegrams := tick32 d.shortTelegrams } }) ∧
      (fits → (∀ k, ¬ hit k) →
        s.decodeFrame f = { s with dec := { d with unmatched := tick32 d.unmatched } }) ∧
      (fits → ∀ k, hit k → (∀ j, j < k → ¬ hit j) →
        let e := vget d.matchTable k matchEntryReset
        s.decodeFrame f = (List.range e.count).foldl (State.decodeItem e bytes s.mgmt.clock)
          { s with dec := { d with framesDecoded := tick32 d.framesDecoded } })) ∧
    (∀ (e : MatchEntry) (arrival : TimeStamp) (i : Nat),
      let counted := { s with dec := { d with itemsOffered := tick32 d.itemsOffered } }
      let obj := e.objBase + i
      let raw := fun (k : Nat) =>
        let g := e.fields.getD k ⟨0, 0⟩
        (bytes.drop (g.off + i * e.stride)).take g.width
      let n := fun k => beNat (raw k)
      let opt := fun k => if (e.fields.getD k ⟨0, 0⟩).width = 0 then none else some (n k)
      let offered := fun v => State.decodeItem e bytes arrival s i =
        (counted.offerItem v arrival).1.settle
      ((∃ g ∈ e.fields, 0 < g.width ∧ bytes.length < g.off + i * e.stride + g.width) →
        State.decodeItem e bytes arrival s i =
          { s with dec := { d with shortTelegrams := tick32 d.shortTelegrams } }) ∧
      (e.fields.length = e.cls.widths.length →
        (∀ g ∈ e.fields, g.width = 0 ∨ g.off + i * e.stride + g.width ≤ bytes.length) →
        (e.cls = .meter → offered (.meter obj (n 0))) ∧
        (e.cls = .manifest → offered (.manifest
          { bay := obj, tanker := n 0, comp := n 1, farm := n 2
            vol := n 3 * (match e.volUnit with | .cl => 1 | .dl => 10 | .litre => 100)
            cat := n 4, sample := opt 5
            collTime := (opt 6).map (fun x => ⟨x / 86400, x % 86400, 0⟩) })) ∧
        (e.cls = .compSelect → offered (.compSelect obj (n 0) (n 1))) ∧
        (e.cls = .compDone → offered (.compDone obj)) ∧
        (e.cls = .compReject → offered (.compReject obj (n 0) (n 1))) ∧
        (e.cls = .cipStart → offered (.cipStart obj)) ∧
        (e.cls = .cipEnd → offered (.cipEnd obj)) ∧
        (e.cls = .batchOpen → offered (.batchOpen obj (n 0) (n 1))) ∧
        (e.cls = .batchClose → offered (.batchClose obj)) ∧
        (e.cls = .carton → offered (.carton obj (n 0))) ∧
        (e.cls = .dispatch → offered (.dispatch (raw 0) (n 1) (n 2))) ∧
        (e.cls = .valve →
          let v := d.overridden obj (BitVec.ofNat 16 (n 0))
          let r := counted.offerItem (.valve obj v) arrival
          (d.lastValve obj = some v → State.decodeItem e bytes arrival s i = s) ∧
          (d.lastValve obj ≠ some v → r.2 = false →
            State.decodeItem e bytes arrival s i = r.1.settle) ∧
          (d.lastValve obj ≠ some v → r.2 = true → State.decodeItem e bytes arrival s i =
            (State.settle { r.1 with
              dec := { r.1.dec with valveFilter := vset r.1.dec.valveFilter obj (some v) } }))))) ∧
    (∀ (c : Nat) (v : Word16) (b : Nat),
      let slot := fun k => vget d.overrides k ⟨false, 0, 0, 0⟩
      let forces := fun k => k < 4 ∧ (slot k).enable = true ∧ (slot k).cluster = c ∧
        (slot k).mask.getLsbD b = true
      (∀ k, forces k → (∀ j, k < j → ¬ forces j) →
        (d.overridden c v).getLsbD b = (slot k).forced.getLsbD b) ∧
      ((∀ k, ¬ forces k) → (d.overridden c v).getLsbD b = v.getLsbD b))

/-- A free transmitter sends the oldest forwarded frame while no injected frame waits or fewer than
four forwarded frames have been sent past it, else the oldest injected frame; the deferral count
follows. Nothing else of the part changes. -/
def Obligations.TransmitterSharesByDeferral : Prop :=
  ∀ (p : Port) (s : State), s.resetAsserted = false → (s.port p).linkUp = true →
    ∃ t, exec (.frameTransmit p) s = .next t ∧ t.port p.other = s.port p.other ∧
      { t with portA := s.portA, portB := s.portB } = s ∧
      ((s.port p).fwd = [] → (s.port p).inj = [] → t = s) ∧
      (∀ f rest, (s.port p).fwd = f :: rest → (s.port p).inj = [] →
        t.port p = { s.port p with fwd := rest, lastSent := some f,
                                   fwdSent := tick32 (s.port p).fwdSent }) ∧
      (∀ f rest, (s.port p).fwd = f :: rest → (s.port p).inj ≠ [] → (s.port p).deferral < 4 →
        t.port p = { s.port p with fwd := rest, lastSent := some f,
                                   fwdSent := tick32 (s.port p).fwdSent,
                                   deferral := (s.port p).deferral + 1 }) ∧
      (∀ i rest, (s.port p).inj = i :: rest → ((s.port p).fwd = [] ∨ 4 ≤ (s.port p).deferral) →
        t.port p = { s.port p with inj := rest, lastSent := some (i.frame s.station),
                                   deferral := 0 })

/-- Every step keeps the ports within their bounds: 12 forwarded frames, 8 places for injected frames
and reservations, a deferral count of at most 4, empty buffers while a link is down, and on each port
one reservation for each command received on it that waits. -/
def Obligations.EveryStepKeepsPortsBounded : Prop :=
  ∀ s t : State, PortsBounded s → step s = .next t → PortsBounded t

/-! ## Time -/

/-- A hundredth of REFCLK advances the Plant Clock by one in its count of hundredths, round to day 0
after day 99,999, and the reference count with it; where a set clock changes its day, every sequence
counter returns to 1. Nothing else changes. At the last hundredth of a day the rollover row takes this
step; in any other moment it changes nothing: the model's reading of the row (log 14). -/
def Obligations.ClockAdvancesAndRollsOver : Prop :=
  ∀ s : State, s.resetAsserted = false → ClockInRange s →
    (∃ t, exec .plantClockAdvance s = .next t ∧
      (t.mgmt.clock.day * 86400 + t.mgmt.clock.sec) * 100 + t.mgmt.clock.hund =
        ((s.mgmt.clock.day * 86400 + s.mgmt.clock.sec) * 100 + s.mgmt.clock.hund + 1) %
          864000000000 ∧
      t.mgmt = { s.mgmt with clock := t.mgmt.clock, elapsed := s.mgmt.elapsed + 1 } ∧
      (∀ f, f < 8 → t.lin.filler f =
        { s.lin.filler f with
          seq := if s.mgmt.clockSet = true ∧ t.mgmt.clock.day ≠ s.mgmt.clock.day then 1
                 else (s.lin.filler f).seq }) ∧
      { t with mgmt := s.mgmt, lin := { t.lin with fillers := s.lin.fillers } } = s) ∧
    (s.mgmt.clock.sec = 86399 → s.mgmt.clock.hund = 99 →
      ∃ t, exec .clockDayRollover s = .next t ∧
        t.mgmt.clock = ⟨(s.mgmt.clock.day + 1) % 100000, 0, 0⟩ ∧
        (s.mgmt.clockSet = true → ∀ f, f < 8 → (t.lin.filler f).seq = 1) ∧
        exec .plantClockAdvance s = .next t) ∧
    (¬ (s.mgmt.clock.sec = 86399 ∧ s.mgmt.clock.hund = 99) → exec .clockDayRollover s = .next s)

/-- Every step keeps the Plant Clock's day, second and hundredth within their ranges. -/
def Obligations.EveryStepKeepsClockInRange : Prop :=
  ∀ s t : State, ClockInRange s → step s = .next t → ClockInRange t

/-- A running idle timer that reaches its instant stops; with a batch open its IDLE_CLOSE entry joins
the queue, or is held as the filler's pending idle close where no ordinary slot is free. Reaching the
instant is measured on the reference count (log 12). -/
def Obligations.IdleTimerExpiryOffersIdleClose : Prop :=
  ∀ (f : Nat) (s : State), s.resetAsserted = false → f < 8 → ∀ due,
    (s.lin.filler f).timer = some due → due ≤ s.mgmt.elapsed →
    let stopped := s.setLin (s.lin.setFiller f { s.lin.filler f with timer := none })
    ((s.lin.filler f).openBatch = none → exec (.idleTimerExpiry f) s = .next stopped) ∧
    (∀ b, (s.lin.filler f).openBatch = some b →
      (ordinaryCount s.evq < 63 → exec (.idleTimerExpiry f) s =
        .next (State.settle { stopped with
          evq := s.evq ++ [⟨.idleClose f b.serial s.mgmt.clock, s.mgmt.clock, 0, false⟩] })) ∧
      (63 ≤ ordinaryCount s.evq → exec (.idleTimerExpiry f) s =
        .next (s.setLin (s.lin.setFiller f { s.lin.filler f with
          timer := none, pendingIdle := some (b.serial, s.mgmt.clock) }))))

/-! ## Management commands -/

/-- The checks of a command frame up to its form, in their order: a wrong version is dropped and
counted; without a place for the reply the frame is dropped and counted; a source that is not on a
list that is not empty is answered NOT_PERMITTED and counted; a wrong form is answered BAD_ARGUMENT.
In all four cases the command has no effect. A source is permitted while the list is empty, and
else when the list holds it. -/
def Obligations.CommandFrameChecksInOrder : Prop :=
  ∀ (i : Instr) (h : CmdHdr) (c : Command) (s : State), commandOf i = some (h, c) →
    s.resetAsserted = false → (s.port h.port).linkUp = true →
    (h.version ≠ 1 → exec i s =
      .next { s with mgmt := { s.mgmt with versionDrops := tick32 s.mgmt.versionDrops } }) ∧
    (h.version = 1 → 8 ≤ (s.port h.port).inj.length + (s.port h.port).reservations → exec i s =
      .next { s with mgmt := { s.mgmt with replyDrops := tick32 s.mgmt.replyDrops } }) ∧
    (h.version = 1 → (s.port h.port).inj.length + (s.port h.port).reservations < 8 →
      s.mgmt.permits h.source = false → exec i s =
        .next (({ s with mgmt := { s.mgmt with refusals := tick32 s.mgmt.refusals } }).setPort h.port
          ((s.port h.port).answered ⟨h.source, commandCode c, h.tag, .notPermitted, []⟩))) ∧
    (h.version = 1 → (s.port h.port).inj.length + (s.port h.port).reservations < 8 →
      s.mgmt.permits h.source = true → formOk h c = false → exec i s =
        .next (s.setPort h.port
          ((s.port h.port).answered ⟨h.source, commandCode c, h.tag, .badArgument, []⟩))) ∧
    (h.source ≠ 0 → (s.mgmt.permits h.source = true ↔ (s.mgmt.manager0 = 0 ∧ s.mgmt.manager1 = 0) ∨
      s.mgmt.manager0 = h.source ∨ s.mgmt.manager1 = h.source))

/-- A queued command that passes the checks is offered to the Event Queue: with an ordinary slot free
it joins as the youngest entry, with the present time and its tag, and is answered QUEUED; else it is
answered QUEUE_FULL and nothing joins; the engine then takes the oldest entry if it may. A direct command
between operations waits, with its reply's place reserved, while an operation is in flight or commands
wait; CLEAR_ENGINE always joins those that wait. -/
def Obligations.QueuedCommandsAreOfferedAndDirectOnesWait : Prop :=
  (∀ (i : Instr) (h : CmdHdr) (v : EntryVal) (s : State), commandOf i = some (h, .queued v) →
    Passes s h (.queued v) →
    (ordinaryCount s.evq < 63 → exec i s =
      .next (State.settle (({ s with evq := s.evq ++ [Entry.mk v s.mgmt.clock h.tag true] }).setPort h.port
        ((s.port h.port).answered ⟨h.source, queuedCode v, h.tag, .queued, []⟩)))) ∧
    (63 ≤ ordinaryCount s.evq → exec i s =
      .next (State.settle (s.setPort h.port
        ((s.port h.port).answered ⟨h.source, queuedCode v, h.tag, .queueFull, []⟩))))) ∧
  (∀ (i : Instr) (h : CmdHdr) (c : Command) (w : WaitCmd) (s : State), commandOf i = some (h, c) →
    Passes s h c →
    (c = .clear ∧ w = .clear ∨
      (s.inFlight ≠ none ∨ s.waiting ≠ []) ∧ ∃ b, c = .between b ∧ w = .between b) →
    exec i s = .next (({ s with
      waiting := s.waiting ++ [Waiting.mk h.port h.source h.tag false w] }).setPort h.port
        { s.port h.port with reservations := (s.port h.port).reservations + 1 }))

/-- With no operation in flight the waiting direct commands ahead of any CLEAR_ENGINE are carried out
in their order of arrival, each answered on its port; then the engine takes an entry if it may. -/
def Obligations.DeferredCommandsRunInOrder : Prop :=
  ∀ (ws rest : List Waiting) (s : State), s.resetAsserted = false → s.inFlight = none →
    s.waiting = ws ++ rest → (∀ w ∈ ws, w.cmd ≠ .clear) → (∀ w, rest.head? = some w → w.cmd = .clear) →
    exec .deferredDirectCommands s =
      .next (State.settle (ws.foldl State.carryOut { s with waiting := rest })) ∧
    (∀ (u : State) (w : Waiting) (b : Between), w.cmd = .between b → u.carryOut w =
      (u.applyBetween w.tag b).1.answer w.port w.lost
        ⟨w.source, betweenCode b, w.tag, (u.applyBetween w.tag b).2.1, (u.applyBetween w.tag b).2.2⟩)

/-- LOAD_MATCH, LOAD_FILTER and LOAD_OVERRIDE replace their entry, SET_MANAGERS both places of its list,
at once and answered DONE, when every value is in range; else they change nothing and are answered
BAD_ARGUMENT. A Match Table entry, valid or not, is in range with an index to 63, a base not above its
limit, a repeat count of 1 to 16, offsets and stride to 1,499, a width allowed to each field of its class,
and items that all concern objects of the class; a manager address, with no group bit and not the part's
own. The engine then takes an entry if it may. -/
def Obligations.TablesAndManagersLoadAtOnce : Prop :=
  ∀ (h : CmdHdr) (s : State),
    let answered := fun (t : State) (code : Nat) (st : Status) => Host.Outcome.next (φ := Fault)
      (ρ := Refusal) (State.settle (t.setPort h.port
        ((s.port h.port).answered ⟨h.source, code, h.tag, st, []⟩)))
    (∀ k e, Passes s h (.atOnce (.loadMatch k e)) →
      let widths : List (List Nat) := match e.cls with
        | .meter | .carton => [[1, 2, 4]]
        | .valve => [[1, 2]]
        | .manifest => [[1, 2, 4], [1, 2, 4], [1, 2, 4], [1, 2, 4], [1], [0, 1, 2, 4], [0, 4]]
        | .compSelect | .compReject => [[1, 2, 4], [1, 2, 4]]
        | .batchOpen => [[1, 2], [1]]
        | .dispatch => [[9], [1, 2], [1, 2, 4]]
        | .compDone | .cipStart | .cipEnd | .batchClose => []
      let objects := match e.cls with
        | .meter => 48
        | .valve => 32
        | .cipStart | .cipEnd => 64
        | _ => 8
      let ok := k ≤ 63 ∧ e.base ≤ e.limit ∧ 1 ≤ e.count ∧ e.count ≤ 16 ∧ e.stride ≤ 1499 ∧
        (∀ f ∈ e.fields, f.off ≤ 1499) ∧ List.Forall₂ (fun ws f => f.width ∈ ws) widths e.fields ∧
        (e.cls = .dispatch ∨ e.objBase + e.count ≤ objects)
      (ok → exec (.loadMatch h k e) s = answered
        { s with dec := { s.dec with matchTable := vset s.dec.matchTable k e } } 0x10 .done) ∧
      (¬ ok → exec (.loadMatch h k e) s = answered s 0x10 .badArgument)) ∧
    (∀ f, Passes s h (.atOnce (.loadFilter f)) →
      (f.stationOff ≤ 1499 ∧ f.kindOff ≤ 1499 ∧ (f.stationWidth = 1 ∨ f.stationWidth = 2) →
        exec (.loadFilter h f) s = answered { s with dec := { s.dec with filter := f } } 0x11 .done) ∧
      (¬ (f.stationOff ≤ 1499 ∧ f.kindOff ≤ 1499 ∧ (f.stationWidth = 1 ∨ f.stationWidth = 2)) →
        exec (.loadFilter h f) s = answered s 0x11 .badArgument)) ∧
    (∀ k o, Passes s h (.atOnce (.loadOverride k o)) →
      (k ≤ 3 ∧ o.cluster ≤ 31 → exec (.loadOverride h k o) s = answered
        { s with dec := { s.dec with overrides := vset s.dec.overrides k o } } 0x12 .done) ∧
      (¬ (k ≤ 3 ∧ o.cluster ≤ 31) → exec (.loadOverride h k o) s = answered s 0x12 .badArgument)) ∧
    (∀ a b, Passes s h (.atOnce (.setManagers a b)) →
      let bad := fun x => x / 2 ^ 40 % 2 = 1 ∨ x = s.station
      (¬ bad a → ¬ bad b → exec (.setManagers h a b) s = answered
        { s with mgmt := { s.mgmt with manager0 := a, manager1 := b } } 0x20 .done) ∧
      (bad a ∨ bad b → exec (.setManagers h a b) s = answered s 0x20 .badArgument))

/-- STATUS is answered DONE at once in every state of the engine with the groups of the status reply, and
changes nothing; the engine then takes the oldest entry if it may. The five reading commands, on an engine
with nothing in flight and nothing waiting, are answered at once with what they read or with the reason
they cannot, and change nothing else. -/
def Obligations.StatusAndReadingsChangeNothing : Prop :=
  (∀ (h : CmdHdr) (s : State), Passes s h (.atOnce .status) →
    ∃ r, r.dst = h.source ∧ r.code = 0x01 ∧ r.tag = h.tag ∧ r.status = .done ∧
      r.args = (s.reserve h.port).statusReply ∧
      exec (.status h) s = .next (State.settle (s.setPort h.port ((s.port h.port).answered r)))) ∧
  (∀ (i : Instr) (h : CmdHdr) (b : Between) (s : State), commandOf i = some (h, .between b) →
    Passes s h (.between b) → s.inFlight = none → s.waiting = [] →
    let replied := fun (st : Status) (args : List Byte) => exec i s = Host.Outcome.next
      (s.setPort h.port ((s.port h.port).answered ⟨h.source, betweenCode b, h.tag, st, args⟩))
    (∀ v, b = .readVessel v → if v ≤ 63 then replied .done (s.lin.readVessel v)
      else replied .badArgument []) ∧
    (∀ k, b = .readKey k →
      (k.toRecordKey = none → replied .badArgument []) ∧
      (∀ key, k.toRecordKey = some key → s.lin.resident key = false →
        replied .notResident (encKey key)) ∧
      (∀ n e, k.toRecordKey = some (.coll n) → s.lin.findColl n = some e →
        replied .done (readColl e.1 e.2)) ∧
      (∀ n e, k.toRecordKey = some (.blend n) → s.lin.findBlend n = some e →
        replied .done (readBlend e.1 e.2))) ∧
    (∀ f p, b = .readBatch f p → if 7 < f ∨ 7 < p then replied .badArgument []
      else match (s.lin.filler f).ring.reverse[p]? with
        | none => replied .notResident []
        | some x => replied .done (readBatchBytes (s.lin.filler f) x)) ∧
    (∀ v, b = .readBay v → if v ≤ 63 ∧ (s.lin.vessel v).kind = .bay
      then replied .done (s.lin.readBay v) else replied .badArgument []) ∧
    (∀ m, b = .readMeter m → if m ≤ 47 then replied .done (s.lin.readMeter m)
      else replied .badArgument []))

/-- JOURNAL_FETCH from the d-th unreleased record, P records being published: d below P gives DONE with
as many whole records from that one on as fit in 1,400 bytes, up to the published sequence; d equal to P
gives DONE with no records; d above P gives RANGE with none; nothing changes. JOURNAL_RELEASE of records
up to one that is published frees them all and moves the oldest sequence behind it; a sequence that is
not unreleased and published, nor the one before the oldest, gives RANGE and frees nothing. -/
def Obligations.JournalIsFetchedAndReleased : Prop :=
  ∀ (h : CmdHdr) (n : Seq) (s : State),
    let P := (s.jrn.published - s.jrn.oldest).toNat
    (Passes s h (.atOnce (.journalFetch n)) →
      let d := (n - s.jrn.oldest).toNat
      ∃ (st : Status) (rs : List JournalRec),
        exec (.journalFetch h n) s = .next (State.settle (s.setPort h.port
          ((s.port h.port).answered ⟨h.source, 0x38, h.tag, st, s.fetchReply rs⟩))) ∧
        (d ≤ P ↔ st = .done) ∧ (P < d ↔ st = .range) ∧ (P ≤ d → rs = []) ∧
        rs <+: (s.jrn.records.take P).drop d ∧ (rs.flatMap JournalRec.bytes).length ≤ 1400 ∧
        (∀ r, rs ++ [r] <+: (s.jrn.records.take P).drop d → d ≤ P →
          1400 < ((rs ++ [r]).flatMap JournalRec.bytes).length)) ∧
    (Passes s h (.atOnce (.journalRelease n)) →
      let d := (n - s.jrn.oldest + 1).toNat
      (d ≤ P → exec (.journalRelease h n) s = .next (State.settle (({ s with
        jrn := { s.jrn with oldest := n + 1, records := s.jrn.records.drop d } }).setPort h.port
          ((s.port h.port).answered ⟨h.source, 0x39, h.tag, .done,
            Journal.header { s.jrn with oldest := n + 1, records := s.jrn.records.drop d }⟩)))) ∧
      (P < d → exec (.journalRelease h n) s = .next (State.settle (s.setPort h.port
          ((s.port h.port).answered ⟨h.source, 0x39, h.tag, .range, s.jrn.header⟩)))))

/-- LOAD_VESSEL on a quiet engine: a check that fails gives its status, in this order, and changes
nothing. BAD_ARGUMENT for an index above 63, a kind that is none of the four or a field out of its range;
TABLE_INVALID for a bay or filler index that another vessel of the kind carries; IN_USE for a new kind or
index of a vessel that holds content, an occupied ring, an open batch or batch records, or that a valid
entry of the active bank names. An accepted one is answered DONE and the entry takes the new
field values, 0 in those of other kinds. With the kind and the bay or filler index kept, it keeps state,
list, category and flags. Else it starts as its kind starts: a STORE unseeded, of category 0 and
uncertain, a BAY or FILLER HOLDING and empty, NONE with every field 0; a BAY's ring is cleared and a
FILLER's record is initialised. Where the kind changes, the entries of the inactive bank that name the
vessel in a role its kind forbids are made invalid. Nothing else changes; that this takes in a filler
record whose index the vessel gives up is the model's choice (log 37). -/
def Obligations.LoadVesselChecksThenConfigures : Prop :=
  ∀ (h : CmdHdr) (v : Nat) (cfg : VesselCfg) (s : State),
    Passes s h (.between (.loadVessel v cfg)) → s.inFlight = none → s.waiting = [] →
    let replied := fun (l : Lineage) (st : Status) => exec (.loadVessel h v cfg) s =
      Host.Outcome.next (({ s with lin := l }).setPort h.port
        ((s.port h.port).answered ⟨h.source, 0x13, h.tag, st, []⟩))
    let x := s.lin.vessel v
    let inRange := match cfg with
      | .unconfigured => True
      | .store cap => 1 ≤ cap ∧ cap ≤ 500000000
      | .bay i tolerance => i ≤ 7 ∧ tolerance ≤ 100
      | .filler i n coder port timeout product =>
        i ≤ 7 ∧ n ≤ 99 ∧ coder < 2 ^ 48 ∧ port ≤ 1 ∧ timeout ≤ 3600 ∧ product ≤ 65535
      | .unknown _ => False
    let taken := ∃ u, u < 64 ∧ u ≠ v ∧ match cfg with
      | .bay i _ => (s.lin.vessel u).kind = .bay ∧ (s.lin.vessel u).bayIndex = i
      | .filler i .. => (s.lin.vessel u).kind = .filler ∧ (s.lin.vessel u).fillerIndex = i
      | _ => False
    let changes : Bool := match cfg with
      | .unconfigured => decide (x.kind ≠ .unconfigured)
      | .store _ => decide (x.kind ≠ .store)
      | .bay i _ => decide (x.kind ≠ .bay ∨ x.bayIndex ≠ i)
      | .filler i .. => decide (x.kind ≠ .filler ∨ x.fillerIndex ≠ i)
      | .unknown _ => false
    let used := (x.kind = .store ∧ x.state = .holding ∧ x.list ≠ []) ∨
      (x.kind = .bay ∧ ∃ k, k < 6 ∧ ((s.lin.ring x.bayIndex).slot k).tag ≠ .empty) ∨
      (x.kind = .filler ∧ ((s.lin.filler x.fillerIndex).state = .batchOpen ∨
        (s.lin.filler x.fillerIndex).ring ≠ [])) ∨
      ∃ i, i < 128 ∧ (s.lin.activeEntry i).valid = true ∧
        ((s.lin.activeEntry i).src = v ∨ (s.lin.activeEntry i).dst = v)
    (63 < v ∨ ¬ inRange → replied s.lin .badArgument) ∧
    (v ≤ 63 → inRange → taken → replied s.lin .tableInvalid) ∧
    (v ≤ 63 → inRange → ¬ taken → changes = true → used → replied s.lin .inUse) ∧
    (v ≤ 63 → inRange → ¬ taken → (changes = false ∨ ¬ used) →
      let fresh : Vessel := match cfg with
        | .store _ => { state := .unseeded, list := [], cat := some 0, uncertain := true, suspect := false }
        | .bay .. => { state := .holding, list := [], cat := none, uncertain := false, suspect := false }
        | .filler .. => { state := .holding, list := [], cat := none, uncertain := false, suspect := false }
        | _ => { state := .unseeded, list := [], cat := none, uncertain := false, suspect := false }
      let c := if changes = true then fresh else x
      let bare : Vessel :=
        { kind := .unconfigured, capacity := 0, bayIndex := 0, tolerance := 0, fillerIndex := 0,
          fillerNumber := 0, coderAddr := 0, coderPort := .a, idleTimeout := 0, autoProduct := 0,
          state := c.state, list := c.list, cat := c.cat, uncertain := c.uncertain,
          suspect := c.suspect }
      let entry : Vessel := match cfg with
        | .store cap => { bare with kind := .store, capacity := cap }
        | .bay i t => { bare with kind := .bay, bayIndex := i, tolerance := t }
        | .filler i n coder p timeout product =>
          { bare with kind := .filler, fillerIndex := i, fillerNumber := n, coderAddr := coder,
                      coderPort := if p = 1 then .b else .a, idleTimeout := timeout,
                      autoProduct := product }
        | _ => bare
      let forbidden := fun (e : RouteEntry) => match cfg with
        | .store _ => False
        | .bay .. => e.dst = v
        | .filler .. => e.src = v
        | _ => e.src = v ∨ e.dst = v
      ∃ l, replied l .done ∧ l.vessels = vset s.lin.vessels v entry ∧
        l.rings = (match cfg with
          | .bay i _ => if changes = true
              then vset s.lin.rings i { slots := Vector.replicate 6 {}, fill := 0, disch := 0 }
              else s.lin.rings
          | _ => s.lin.rings) ∧
        l.fillers = (match cfg with
          | .filler i .. => if changes = true
              then vset s.lin.fillers i
                { state := .idle, lastCarton := 0, seen := false, seq := 1, lastFlow := ⟨0, 0, 0⟩,
                  timer := none, pendingIdle := none, ring := [] }
              else s.lin.fillers
          | _ => s.lin.fillers) ∧
        l.bank s.lin.active = s.lin.bank s.lin.active ∧
        (∀ i, i < 128 →
          let e := vget (s.lin.bank s.lin.active.other) i {}
          let f := vget (l.bank s.lin.active.other) i {}
          (x.kind ≠ entry.kind ∧ forbidden e → f = { e with valid := false }) ∧
          (¬ (x.kind ≠ entry.kind ∧ forbidden e) → f = e)) ∧
        l = { s.lin with vessels := l.vessels, rings := l.rings, fillers := l.fillers,
                         bankA := l.bankA, bankB := l.bankB })

/-- LOAD_ROUTE on a quiet engine, checked in the order BAD_ARGUMENT, ACTIVE_BANK, TABLE_INVALID: it
replaces one entry of the bank that is not active and nothing else, or nothing. That a valid byte other
than 0 or 1 is refused BAD_ARGUMENT is the model's choice (log 16). -/
def Obligations.LoadRouteChecksThenReplacesOneEntry : Prop :=
  ∀ (h : CmdHdr) (r : RouteArgs) (s : State), Passes s h (.between (.loadRoute r)) →
    s.inFlight = none → s.waiting = [] →
    let replied := fun (t : State) (st : Status) => exec (.loadRoute h r) s = Host.Outcome.next
      (t.setPort h.port ((s.port h.port).answered ⟨h.source, 0x15, h.tag, st, []⟩))
    (1 < r.bank ∨ 127 < r.index ∨ 2 < r.count ∨ 1 < r.valid → replied s .badArgument) ∧
    (∀ k, bankOfByte r.bank = some k → r.index ≤ 127 → r.count ≤ 2 → r.valid ≤ 1 →
      (k = s.lin.active → replied s .activeBank) ∧
      (k ≠ s.lin.active →
        let e : RouteEntry :=
          { valid := decide (r.valid = 1), meter := r.meter, src := r.src, dst := r.dst,
            count := r.count, c1 := r.c1, c2 := r.c2 }
        let fine := r.valid = 0 ∨ (r.meter ≤ 47 ∧ r.src ≤ 63 ∧ r.dst ≤ 63 ∧
          (s.lin.vessel r.src).kind ≠ .unconfigured ∧ (s.lin.vessel r.dst).kind ≠ .unconfigured ∧
          (s.lin.vessel r.src).kind ≠ .filler ∧ (s.lin.vessel r.dst).kind ≠ .bay ∧
          ∀ c ∈ [r.c1, r.c2].take r.count, c.cluster ≤ 31)
        (fine → replied { s with lin := s.lin.setEntry k r.index e } .done) ∧
        (¬ fine → replied s .tableInvalid)))

/-- On a quiet engine LOAD_METER, LOAD_CATEGORY, LOAD_POLICY, LOAD_OUTPUT, SET_PLANT and SET_SERIALS each
replace what they name and nothing else, and a value out of range is answered BAD_ARGUMENT and changes
nothing. LOAD_METER marks the meter configured, replaces its four values, clears the reference-valid flag
and the residue and keeps route and segment, and the reference's value (log 25). LOAD_CATEGORY replaces the
whole table, cell i * 8 + j being that of row i and column j. LOAD_POLICY replaces one row or one content
cause and LOAD_OUTPUT one entry of the Output Map; latches, counters and holds as shown stay. The filler
byte of an entry of another source than FILLER_HOLD is stored as received (log 38), and a report, enable
or polarity byte above 1 is refused BAD_ARGUMENT (log 16): both are the model's choice. A serial counter
takes a value other than 0 and is kept at 0. -/
def Obligations.TablesAndSettingsAreReplacedOneByOne : Prop :=
  (∀ (h : CmdHdr) (m w num den j : Nat) (s : State), Passes s h (.between (.loadMeter m w num den j)) →
    s.inFlight = none → s.waiting = [] →
    let ok := m ≤ 47 ∧ (w = 16 ∨ w = 32) ∧ 1 ≤ num ∧ num ≤ 65535 ∧ 1 ≤ den ∧ den ≤ 65535 ∧
      j ≤ 1000000000
    (ok → exec (.loadMeter h m w num den j) s = .next (({ s with lin := (s.lin.setMeter m
        { s.lin.meter m with configured := true, width := w, num := num, den := den, jump := j,
                             refValid := false, residue := 0 }) }).setPort h.port
        ((s.port h.port).answered ⟨h.source, 0x14, h.tag, .done, []⟩))) ∧
    (¬ ok → exec (.loadMeter h m w num den j) s = .next (s.setPort h.port
        ((s.port h.port).answered ⟨h.source, 0x14, h.tag, .badArgument, []⟩)))) ∧
  (∀ (h : CmdHdr) (cells : List Nat) (s : State), Passes s h (.between (.loadCategory cells)) →
    s.inFlight = none → s.waiting = [] → cells.length = 64 →
    ((∃ x ∈ cells, 7 < x) → exec (.loadCategory h cells) s = .next (s.setPort h.port
      ((s.port h.port).answered ⟨h.source, 0x16, h.tag, .badArgument, []⟩))) ∧
    ((∀ x ∈ cells, x ≤ 7) → ∃ t, exec (.loadCategory h cells) s = .next t ∧
      t.port h.port = (s.port h.port).answered ⟨h.source, 0x16, h.tag, .done, []⟩ ∧
      t.port h.port.other = s.port h.port.other ∧
      { t with portA := s.portA, portB := s.portB, lin := { t.lin with catTab := s.lin.catTab } } = s ∧
      ∀ a b : Fin 8, (t.lin.merge (some a) (some b)).map Fin.val = cells[a.val * 8 + b.val]?)) ∧
  (∀ (h : CmdHdr) (s : State), s.inFlight = none → s.waiting = [] →
    (∀ row rep tg, Passes s h (.between (.loadPolicy (.cond row rep tg))) →
      let replied := fun (t : State) (st : Status) => exec (.loadPolicy h (.cond row rep tg)) s =
        Host.Outcome.next (t.setPort h.port
          ((s.port h.port).answered ⟨h.source, 0x17, h.tag, st, []⟩))
      (∀ r t, flagOfByte rep = some r → targetOfByte tg = some t → row ≤ 19 → replied
        { s with hold := { s.hold with policy := vset s.hold.policy row ⟨r, t⟩ } } .done) ∧
      (1 < rep ∨ 3 < tg ∨ 19 < row → replied s .badArgument)) ∧
    (∀ cause on, Passes s h (.between (.loadPolicy (.content cause on))) →
      let replied := fun (t : State) (st : Status) => exec (.loadPolicy h (.content cause on)) s =
        Host.Outcome.next (t.setPort h.port
          ((s.port h.port).answered ⟨h.source, 0x17, h.tag, st, []⟩))
      (∀ v, flagOfByte on = some v →
        (cause = 0 → replied { s with hold := { s.hold with suspectOn := v } } .done) ∧
        (cause = 1 → replied { s with hold := { s.hold with uncertainOn := v } } .done) ∧
        (cause = 2 → replied { s with hold := { s.hold with mismatchOn := v } } .done)) ∧
      (1 < on ∨ 2 < cause → replied s .badArgument)) ∧
    (∀ pin src f pol, Passes s h (.between (.loadOutput pin src f pol)) →
      let replied := fun (t : State) (st : Status) => exec (.loadOutput h pin src f pol) s =
        Host.Outcome.next (t.setPort h.port
          ((s.port h.port).answered ⟨h.source, 0x18, h.tag, st, []⟩))
      (∀ x low, sourceOfByte src = some x → flagOfByte pol = some low → pin ≤ 11 →
        (x = .fillerHold → f ≤ 7) → replied { s with hold := { s.hold with
          outMap := vset s.hold.outMap pin { source := x, filler := f, activeLow := low } } } .done) ∧
      (11 < pin ∨ 5 < src ∨ 1 < pol ∨ (src = 1 ∧ 7 < f) → replied s .badArgument)) ∧
    (∀ n, Passes s h (.between (.setPlant n)) →
      (n ≤ 9999 → exec (.setPlant h n) s = .next (({ s with mgmt := { s.mgmt with plant := n } }).setPort
        h.port ((s.port h.port).answered ⟨h.source, 0x21, h.tag, .done, []⟩))) ∧
      (9999 < n → exec (.setPlant h n) s = .next (s.setPort h.port
        ((s.port h.port).answered ⟨h.source, 0x21, h.tag, .badArgument, []⟩)))) ∧
    (∀ c b n, Passes s h (.between (.setSerials c b n)) →
      (c ≤ 268435455 → b ≤ 268435455 → n ≤ 268435455 → exec (.setSerials h c b n) s =
        .next (({ s with lin := { s.lin with
          collNext := if c = 0 then s.lin.collNext else c
          blendNext := if b = 0 then s.lin.blendNext else b
          batchNext := if n = 0 then s.lin.batchNext else n } }).setPort h.port
          ((s.port h.port).answered ⟨h.source, 0x22, h.tag, .done, []⟩))) ∧
      (268435455 < c ∨ 268435455 < b ∨ 268435455 < n → exec (.setSerials h c b n) s =
        .next (s.setPort h.port
          ((s.port h.port).answered ⟨h.source, 0x22, h.tag, .badArgument, []⟩)))))

/-- SET_CLOCK on a quiet engine: a time out of range gives BAD_ARGUMENT, a full journal RANGE, and both
change nothing; else the clock takes the time and is set, a change of the code day returns every
sequence counter to 1, and an ENGINE record with the former reading is written at the new time and
published. Idle timers do not move. -/
def Obligations.SetClockSetsTheTime : Prop :=
  ∀ (h : CmdHdr) (d sec c : Nat) (s : State), Passes s h (.between (.setClock d sec c)) →
    s.inFlight = none → s.waiting = [] →
    let bad := 99999 < d ∨ 86399 < sec ∨ 99 < c
    (bad → exec (.setClock h d sec c) s = .next (s.setPort h.port
      ((s.port h.port).answered ⟨h.source, 0x23, h.tag, .badArgument, []⟩))) ∧
    (¬ bad → s.jrn.free = 0 → exec (.setClock h d sec c) s = .next (s.setPort h.port
      ((s.port h.port).answered ⟨h.source, 0x23, h.tag, .range, []⟩))) ∧
    (¬ bad → s.jrn.free ≠ 0 → ∃ t, exec (.setClock h d sec c) s = .next t ∧
      t.port h.port = (s.port h.port).answered ⟨h.source, 0x23, h.tag, .done, []⟩ ∧
      t.port h.port.other = s.port h.port.other ∧
      t.mgmt = { s.mgmt with clock := ⟨d, sec, c⟩, clockSet := true } ∧
      t.jrn = (s.jrn.write ⟨d, sec, c⟩ h.tag (.engineClock s.mgmt.clock s.mgmt.clockSet)).publish ∧
      (∀ f, f < 8 → t.lin.filler f = { s.lin.filler f with
        seq := if d = (if s.mgmt.clockSet = true then s.mgmt.clock.day else 0)
               then (s.lin.filler f).seq else 1 }) ∧
      { t with portA := s.portA, portB := s.portB, mgmt := s.mgmt, jrn := s.jrn,
               lin := { t.lin with fillers := s.lin.fillers } } = s)

/-- CLEAR_ENGINE at the head of the waiting commands, with no operation in flight and 80 free records:
the queue is emptied, every open batch closed, vessels return to the content of their kind with their
configuration kept, all records are freed, valves are unseen, fillers idle with empty rings, latches
empty and every hold released; the journal gains a BATCH_CLOSE record of reason CLEAR for each open batch
in ascending filler order, a HOLD record of action CLEAR for each hold that changed, and one ENGINE record
of what was removed, the GAP entry counted among it (log 31); all is published and the command answered
DONE, its reply being discarded and counted where its link is DOWN or has been DOWN since its arrival
(R174, read as log 26 says). Banks, the merge table, serial counters, policies, counters, the Output Map, filters and the clock
are kept. -/
def Obligations.ClearEngineEmptiesTheEngine : Prop :=
  ∀ (w : Waiting) (rest : List Waiting) (s : State), s.resetAsserted = false → s.inFlight = none →
    s.waiting = w :: rest → w.cmd = .clear → 80 ≤ s.jrn.free →
    ∃ t, exec .applyClearEngine s = .next t ∧ t.evq = [] ∧ t.inFlight = none ∧ t.waiting = rest ∧
      t.resetAsserted = false ∧ t.pending = s.pending ∧
      (∀ p, t.port p = if p = w.port then
        (if w.lost = true ∨ (s.port p).linkUp = false then
          { s.port p with reservations := (s.port p).reservations - 1,
                          linkLoss := tick32 (s.port p).linkLoss }
         else { s.port p with reservations := (s.port p).reservations - 1,
                              inj := (s.port p).inj ++ [.reply ⟨w.source, 0x3F, w.tag, .done, []⟩] })
        else s.port p) ∧
      t.dec = { s.dec with valveFilter := Vector.replicate 32 none } ∧
      t.lin.colls = [] ∧ t.lin.blends = [] ∧
      (∀ v, v < 64 → t.lin.vessel v = match (s.lin.vessel v).kind with
        | .unconfigured => {}
        | .store => { s.lin.vessel v with
            state := .unseeded, list := [], cat := some 0, uncertain := true, suspect := false }
        | _ => { s.lin.vessel v with
            state := .holding, list := [], cat := none, uncertain := false, suspect := false }) ∧
      (∀ b, b < 8 → t.lin.ring b = { slots := Vector.replicate 6 {}, fill := 0, disch := 0 }) ∧
      (∀ c, c < 32 → vget t.lin.clusters c {} = { value := 0, seen := false }) ∧
      (∀ f, f < 8 → t.lin.filler f = { s.lin.filler f with
        state := .idle, ring := [], timer := none, pendingIdle := none }) ∧
      (∀ m, m < 48 → t.lin.meter m = { s.lin.meter m with
        ref := 0, refValid := false, residue := 0, route := t.lin.resolve m,
        seg := { start := s.mgmt.clock, vol := 0, flags := {} } }) ∧
      t.lin.bankA = s.lin.bankA ∧ t.lin.bankB = s.lin.bankB ∧ t.lin.active = s.lin.active ∧
      t.lin.catTab = s.lin.catTab ∧ t.lin.collNext = s.lin.collNext ∧
      t.lin.blendNext = s.lin.blendNext ∧ t.lin.batchNext = s.lin.batchNext ∧
      t.lin.farms = s.lin.farms ∧ t.mgmt = s.mgmt ∧
      { t.hold with latches := s.hold.latches, shown := s.hold.shown } = s.hold ∧
      (∀ i, i < 9 → t.hold.latch i = 0 ∧
        t.hold.view i = { asserted := false, latch := 0, causes := {} }) ∧
      t.jrn = (s.jrn.writeAll s.mgmt.clock w.tag
        ((List.range 8).filterMap (fun f => (s.lin.filler f).openBatch.map (fun b =>
            .batchClosed (b.closedAs s.mgmt.clock .clear) none)) ++
         ((List.range 9).filter (fun i => decide (s.hold.view i ≠ t.hold.view i))).map (fun i => .hold
            { hold := if i < 8 then i else 0xFD, action := .clear, result := .done,
              before := s.hold.view i, after := t.hold.view i, batch := none }) ++
         [.engineClear s.evq.length (gapStanding s.evq)
          ((List.range 8).filter (fun f => (s.lin.filler f).openBatch.isSome)).length])).publish

/-! ## The engine, conditions and holds -/

/-- The engine takes the oldest entry when RESET is released, no operation is in flight, no command
waits and the journal holds 80 free records, and notes the time of the taking; otherwise nothing is taken.
Taking an ordinary entry lets the fillers with a pending idle close offer it, in ascending filler index:
those that find an ordinary slot free join the queue behind the rest as IDLE_CLOSE entries and are pending
no longer, the others stay pending. Taking the GAP entry causes no offer. Nothing else changes. -/
def Obligations.EngineTakesTheOldestEntry : Prop :=
  ∀ s : State,
    (∀ e rest, s.resetAsserted = false → s.inFlight = none → s.waiting = [] → s.evq = e :: rest →
      80 ≤ s.jrn.free →
        let now := s.mgmt.clock
        let offers := (List.range 8).filterMap (fun f =>
          (s.lin.filler f).pendingIdle.map (fun p => (f, p.1, p.2)))
        let accepted := offers.take (63 - ordinaryCount rest)
        (e.isGap = false → s.settle = { s with
          evq := rest ++ accepted.map (fun o => Entry.mk (.idleClose o.1 o.2.1 o.2.2) now 0 false)
          inFlight := some { toEntry := e, takenAt := now }
          lin := { s.lin with fillers := s.lin.fillers.mapIdx (fun f x =>
            if f ∈ accepted.map Prod.fst then { x with pendingIdle := none } else x) } }) ∧
        (e.isGap = true → s.settle =
          { s with evq := rest, inFlight := some { toEntry := e, takenAt := now } })) ∧
    (s.resetAsserted = true ∨ s.inFlight ≠ none ∨ s.waiting ≠ [] ∨ s.evq = [] ∨ s.jrn.free < 80 →
      s.settle = s)

/-- Every row of an engine operation, on an entry of its kind in flight, ends in a next state in which
RESET, the decoder, waiting commands, the Management unit, the policies, the Output Map, the merge table
and the Route Banks stand as before, the journal has gained records of the entry's tag, all published, and
every hold is shown as computed from that state. Among the records stands, behind the operation's own, one
HOLD record of action EVALUATE for exactly each hold whose state changed, fillers 0 to 7 and then the
dispatch hold, with its state before and after and a filler's open batch; only HOLD_RELEASE names holds
for records of action RELEASE. A port changes only where a BATCH record of a batch neither indefinite nor
unsent stands among the records, and then by code notices alone. The records carry one time, that of the row, which rests
on the reading that an operation's effects fall together (log 28). At its end the operation gives up the
entry in flight and leaves the rest of the queue, and the engine takes the next entry if it may: queue,
entry in flight and pending idle closes are then those of that taking. -/
def Obligations.EveryOperationCompletesWithinItsFrame : Prop :=
  ∀ (s : State) (e : TakenEntry), Taken s e →
    ∃ t l h ps after released, exec e.val.row s = .next t ∧
      OpResult s t e.tag l h ps after released ∧
      (released = [] ∨ ∃ a, e.val = .holdRelease a) ∧
      h.policy = s.hold.policy ∧ h.outMap = s.hold.outMap ∧ h.suspectOn = s.hold.suspectOn ∧
      h.uncertainOn = s.hold.uncertainOn ∧ h.mismatchOn = s.hold.mismatchOn ∧
      l.catTab = s.lin.catTab ∧ l.bankA = s.lin.bankA ∧ l.bankB = s.lin.bankB

/-- After an engine operation a hold is asserted exactly when its latch set is not empty or a content
cause is in force: for a filler, its open batch's flag with that cause enabled; the dispatch gate has
no content cause. -/
def Obligations.HoldsFollowLatchesAndCauses : Prop :=
  ∀ (s t : State) (e : TakenEntry), Taken s e → exec e.val.row s = .next t →
    ∀ i, i < 9 →
      ((t.hold.view i).asserted = true ↔ t.hold.latch i ≠ 0 ∨ (i < 8 ∧ ∃ b,
        (t.lin.filler i).openBatch = some b ∧
          ((t.hold.suspectOn = true ∧ b.suspect = true) ∨
           (t.hold.uncertainOn = true ∧ b.uncertain = true) ∨
           (t.hold.mismatchOn = true ∧ b.mismatch = true)))) ∧
      (t.hold.view i).latch = t.hold.latch i

/-- A raise counts its kind once, the counter staying at its top; it writes a CONDITION record where the
policy reports; and it latches its kind on the holds the policy's target gives, and on no other: the
filler the condition names, if it names one; every filler index that a FILLER vessel carries; the dispatch
hold; or none. That the CONDITION record of an ALL_FILLERS raise lists the latch sets in ascending filler
index is the model's choice, which R130, R132 and R134 leave open (log 17). -/
def Obligations.RaiseCountsReportsAndLatches : Prop :=
  ∀ (s : State) (tag : Nat) (filler : Option Nat) (c : CondVals),
    let t := s.raise tag filler c
    let target := (vget s.hold.policy c.row {}).target
    let targets := s.lin.latchTargets target filler
    t.jrn = s.jrn.writeAll s.mgmt.clock tag (s.raisedRecs filler c) ∧
    (∀ k, k < 20 → vget t.hold.counters k 0 =
      if k = c.row then min (vget s.hold.counters k 0 + 1) (max (vget s.hold.counters k 0) 4294967295)
      else vget s.hold.counters k 0) ∧
    (∀ i k, i < 9 → k < 20 → ((t.hold.latch i).has k = true ↔
      (s.hold.latch i).has k = true ∨ (k = c.row ∧ i ∈ targets))) ∧
    (∀ i, i ∈ targets ↔ match target with
      | .noHold => False
      | .namedFiller => filler = some i
      | .allFillers => i < 8 ∧ ∃ v, v < 64 ∧ (s.lin.vessel v).kind = .filler ∧
          (s.lin.vessel v).fillerIndex = i
      | .dispatch => i = 8) ∧
    targets.Pairwise (· < ·) ∧
    { t with jrn := s.jrn, hold := { t.hold with
        counters := s.hold.counters, latches := s.hold.latches } } = s

/-- A hold output whose source is inactive is high impedance, and one whose source is active drives the
level of its polarity: a filler's hold as it is shown, the dispatch hold, any of the nine, an engine with
entries standing that has none in flight and nothing waiting, or always. That an engine with direct
commands waiting after an operation's end is not STALLED is the model's choice (log 7). -/
def Obligations.PinsFollowTheirSources : Prop :=
  ∀ (s : State) (i : Nat), i < 12 →
    let o := vget s.hold.outMap i {}
    let active := match o.source with
      | .none => False
      | .fillerHold => (s.hold.view o.filler).asserted = true
      | .dispatchHold => (s.hold.view 8).asserted = true
      | .anyHold => ∃ k, k < 9 ∧ (s.hold.view k).asserted = true
      | .engineStalled => s.inFlight = none ∧ s.waiting = [] ∧ s.evq ≠ []
      | .forcedOn => True
    (¬ active → s.pin i = .highZ) ∧
    (active → s.pin i = if o.activeLow = true then .low else .high)

/-! ## Meters -/

/-- A reading of a meter that is not configured changes nothing; the first reading of a configured one
sets the reference only; a backward step moves the reference and raises METER_STEP, naming the filler of
the route's destination. A forward step by delta forms x = delta times NUM plus the residue: the residue
becomes x mod DEN and the reference the total; a volume x / DEN of 0 changes nothing else, above 0 it is
counted in the meter's open segment, and no other meter's record changes. -/
def Obligations.MeterReadingsScaleAndCarryTheResidue : Prop :=
  ∀ (s : State) (e : TakenEntry) (m T : Nat), Taken s e → e.val = .meter m T → m < 48 →
    let x := s.lin.meter m
    let r := T % 2 ^ x.width
    let delta := (r + 2 ^ x.width - x.ref) % 2 ^ x.width
    let v := (delta * x.num + x.residue) / x.den
    let y := { x with ref := r, residue := (delta * x.num + x.residue) % x.den }
    let back := CondVals.meterStep m x.ref r
    (x.configured = false → ∃ t, exec .meterEntry s = .next t ∧
      OpResult s t e.tag s.lin s.hold [] []) ∧
    (x.configured = true → x.refValid = false → ∃ t, exec .meterEntry s = .next t ∧
      OpResult s t e.tag (s.lin.setMeter m { x with ref := r, refValid := true }) s.hold [] []) ∧
    (x.configured = true → x.refValid = true → 2 ^ (x.width - 1) ≤ delta →
      ∃ t, exec .meterEntry s = .next t ∧
        OpResult s t e.tag (s.lin.setMeter m { x with ref := r })
          (s.raisedHold (s.lin.routeFiller m) back) (s.raisedRecs (s.lin.routeFiller m) back) []) ∧
    (x.configured = true → x.refValid = true → delta < 2 ^ (x.width - 1) → v = 0 →
      ∃ t, exec .meterEntry s = .next t ∧ OpResult s t e.tag (s.lin.setMeter m y) s.hold [] []) ∧
    (x.configured = true → x.refValid = true → delta < 2 ^ (x.width - 1) → 0 < v →
      ∃ t l h ps, exec .meterEntry s = .next t ∧ OpResult s t e.tag l h ps [] ∧
        (∃ seg, l.meter m = { y with seg := seg } ∧
          seg.vol = if 2 ^ 48 - 1 < x.seg.vol + v then v else x.seg.vol + v) ∧
        ∀ k, k ≠ m → l.meter k = s.lin.meter k)

/-- A volume above 0 is first held against the jump limit: above it the uncertain flags of the parties of
a routed flow are set and METER_JUMP is raised. Then the open segment counts it, a segment that would pass
2^48 - 1 being closed with a SEGMENT record of reason LIMIT and opened anew. Then it goes where the meter's
route says: on route NONE nothing moves, the vessels that valid entries of the active bank name for the
meter become uncertain, and UNROUTED is raised; on a route from a vessel to itself nothing moves; with a
party CLEANING nothing moves, a destination that is not CLEANING becomes uncertain and CLEANING_FLOW is
raised; else the volume is transferred, above 1,000,000,000 cL only that much of it, the rest being raised
as OVERFILL with both parties uncertain. The segment that counted the volume takes the flags of the jump
and of the case (log 32). -/
def Obligations.MeteredVolumeGoesWhereTheRouteSays : Prop :=
  ∀ (s : State) (e : TakenEntry) (m T : Nat), Taken s e → e.val = .meter m T → m < 48 →
    let x := s.lin.meter m
    let r := T % 2 ^ x.width
    let delta := (r + 2 ^ x.width - x.ref) % 2 ^ x.width
    let v := (delta * x.num + x.residue) / x.den
    x.configured = true → x.refValid = true → delta < 2 ^ (x.width - 1) → 0 < v →
    let jump := 0 < x.jump ∧ x.jump < v
    let limit := 2 ^ 48 - 1 < x.seg.vol + v
    let above := 1000000000 < v
    let counted := fun (flagged : SegFlags → SegFlags) =>
      let y : Segment := if limit then { start := s.mgmt.clock, vol := v, flags := {} }
        else { x.seg with vol := x.seg.vol + v }
      s.lin.setMeter m { x with
        ref := r, residue := (delta * x.num + x.residue) % x.den,
        seg := { y with flags := flagged (if jump then { y.flags with jump := true } else y.flags) } }
    let parties := fun (l : Lineage) (r : Route) => (l.setUncertain r.src).setUncertain r.dst
    let who := s.lin.routeFiller m
    let u := s.setHold (if jump then s.raisedHold who (.meterJump m v) else s.hold)
    let first := (if jump then s.raisedRecs who (.meterJump m v) else []) ++
      (if limit ∧ x.seg.vol ≠ 0 then [.segment
        { meter := m, route := x.route, start := x.seg.start, stop := s.mgmt.clock, vol := x.seg.vol,
          flags := x.seg.flags, reason := .limit }] else [])
    (x.route = none → ∃ t, exec .meterEntry s = .next t ∧
      OpResult s t e.tag
        ((counted (fun f => { f with unrouted := true })).setUncertainAll (s.lin.candidates m))
        (u.raisedHold none (.unrouted m v)) (first ++ u.raisedRecs none (.unrouted m v)) []) ∧
    (∀ p, x.route = some p → p.src = p.dst → ∃ t, exec .meterEntry s = .next t ∧
      OpResult s t e.tag (counted (fun f => { f with sameVessel := true })) u.hold first []) ∧
    (∀ p, x.route = some p → p.src ≠ p.dst →
      (s.lin.isCleaning p.src = true ∨ s.lin.isCleaning p.dst = true) →
      ∃ t, exec .meterEntry s = .next t ∧
        let l := counted (fun f => { f with cleaning := true })
        let c := CondVals.cleaningFlow m p.src p.dst v
        OpResult s t e.tag (if s.lin.isCleaning p.dst = true then l else l.setUncertain p.dst)
          (u.raisedHold (s.lin.namedFiller p.dst) c)
          (first ++ u.raisedRecs (s.lin.namedFiller p.dst) c) []) ∧
    (∀ p, x.route = some p → p.src ≠ p.dst → s.lin.isCleaning p.src = false →
      s.lin.isCleaning p.dst = false →
      let l := counted (fun f => if above then { f with capped := true } else f)
      let c := CondVals.overfill p.dst (v - 1000000000)
      let before := first ++ (if above then u.raisedRecs (s.lin.namedFiller p.dst) c else [])
      let start := { s with
        lin := if jump ∨ above then parties l p else l
        hold := if above then u.raisedHold (s.lin.namedFiller p.dst) c else u.hold
        jrn := s.jrn.writeAll s.mgmt.clock e.tag before }
      let moved := (start.transfer p.src p.dst (min v 1000000000) e.tag (decide (jump ∨ above))).st
      ∃ t ps, exec .meterEntry s = .next t ∧
        OpResult s t e.tag moved.lin moved.hold (before ++ ps) [] ∧
        (∀ q, t.port q = moved.port q) ∧ moved.jrn = s.jrn.writeAll s.mgmt.clock e.tag (before ++ ps))

/-- Every step keeps each meter's residue below its denominator, and the denominator at 1 or more. -/
def Obligations.EveryStepKeepsResiduesBelowDenominators : Prop :=
  ∀ s t : State, ResiduesBelowDen s → step s = .next t → ResiduesBelowDen t

/-! ## Valves and routes -/

/-- A VALVE entry sets its cluster, seen, and resolves every meter that the active bank makes depend on
the cluster: the route is then the lowest entry that holds; where source or destination differ from
before, the old segment is closed with a SEGMENT record if it carried volume, and a new one opened. No
other meter, and no vessel, changes. -/
def Obligations.ValveEntryResolvesDependentMeters : Prop :=
  ∀ (s : State) (e : TakenEntry) (c : Nat) (v : Word16), Taken s e → e.val = .valve c v → c < 32 →
    ∃ t l, exec .valveEntry s = .next t ∧
      let moved := fun m => (s.lin.meter m).route.map Route.ends ≠ (l.resolve m).map Route.ends
      OpResult s t e.tag l s.hold
        (((List.range 48).filter (fun m => decide (s.lin.dependsOn c m = true ∧ moved m ∧
          (s.lin.meter m).seg.vol ≠ 0))).map (fun m => .segment
            { meter := m, route := (s.lin.meter m).route, start := (s.lin.meter m).seg.start,
              stop := s.mgmt.clock, vol := (s.lin.meter m).seg.vol,
              flags := (s.lin.meter m).seg.flags, reason := .route })) [] ∧
      l.clusters = vset s.lin.clusters c ⟨v, true⟩ ∧
      l = { s.lin with clusters := l.clusters, meters := l.meters } ∧
      ∀ m, m < 48 → l.meter m =
        if s.lin.dependsOn c m = true then
          (if moved m then { s.lin.meter m with
              route := l.resolve m, seg := { start := s.mgmt.clock, vol := 0, flags := {} } }
           else { s.lin.meter m with route := l.resolve m })
        else s.lin.meter m

/-- SWITCH_BANK closes every meter's segment, with a SEGMENT record where it carried volume, makes the
other bank active, resolves every meter on it, opens a new segment for each, and writes an ENGINE
record with the bank now active. -/
def Obligations.SwitchBankResolvesEveryMeter : Prop :=
  ∀ (s : State) (e : TakenEntry), Taken s e → e.val = .switchBank →
    ∃ t l, exec .switchBankEntry s = .next t ∧
      OpResult s t e.tag l s.hold
        (((List.range 48).filter (fun m => decide ((s.lin.meter m).seg.vol ≠ 0))).map
          (fun m => .segment
            { meter := m, route := (s.lin.meter m).route, start := (s.lin.meter m).seg.start,
              stop := s.mgmt.clock, vol := (s.lin.meter m).seg.vol,
              flags := (s.lin.meter m).seg.flags, reason := .switch }) ++ [.engineSwitch l.active]) [] ∧
      l.active = s.lin.active.other ∧ l = { s.lin with active := l.active, meters := l.meters } ∧
      ∀ m, m < 48 → l.meter m = { s.lin.meter m with
        route := l.resolve m, seg := { start := s.mgmt.clock, vol := 0, flags := {} } }

/-- A resolution is the lowest-indexed valid entry of the active bank for the meter whose conditions in
use all hold on seen clusters; NONE where there is none. -/
def Obligations.ResolutionIsTheLowestEntryThatHolds : Prop :=
  ∀ (l : Lineage) (m : Nat),
    let fits := fun i => (l.activeEntry i).valid = true ∧ (l.activeEntry i).meter = m ∧
      ∀ c ∈ [(l.activeEntry i).c1, (l.activeEntry i).c2].take (l.activeEntry i).count,
        (vget l.clusters c.cluster {}).seen = true ∧
        (vget l.clusters c.cluster {}).value &&& c.mask = c.mtch
    (l.resolve m = none ↔ ∀ i, i < 128 → ¬ fits i) ∧
    (∀ r, l.resolve m = some r ↔ r.entry < 128 ∧ fits r.entry ∧ (∀ i, i < r.entry → ¬ fits i) ∧
      r.bank = l.active ∧ r.src = (l.activeEntry r.entry).src ∧ r.dst = (l.activeEntry r.entry).dst)

/-- Every step keeps each meter's current route equal to its resolution on the active bank and the
Valve Image. -/
def Obligations.EveryStepKeepsRoutesResolved : Prop :=
  ∀ s t : State, RoutesResolved s → step s = .next t → RoutesResolved t

/-! ## The Event Queue and the journal -/

/-- Every step keeps the queue within 63 ordinary entries and one GAP entry. -/
def Obligations.EveryStepKeepsQueueBounded : Prop :=
  ∀ s t : State, QueueBounded s → step s = .next t → QueueBounded t

/-- A reading of a meter or a carton counter combines with the youngest entry of its object when only
METER and CARTON entries stand behind that entry: its value and arrival time replace the entry's, in
its place; the item is then taken, at any depth of the queue, and nothing else changes. In every other queue it does not combine, one that holds no entry of its object among them, and
no entry of another kind ever does. A plant item that neither combines nor finds an ordinary slot is
refused: a METER or CARTON item counts as a reading dropped; any other item makes the GAP entry, with
count 1, or moves it to the tail with its count one higher. -/
def Obligations.OffersCombineOrAreRefused : Prop :=
  (∀ (v : EntryVal) (arrival : TimeStamp) (q : List Entry),
    (∀ front e back, q = front ++ e :: back → v.sameReading e.val = true →
      (∀ x ∈ back, x.val.combinable = true ∧ v.sameReading x.val = false) →
      combine v arrival q = some (front ++ { e with val := v, arrival := arrival } :: back)) ∧
    ((∀ x ∈ q, v.sameReading x.val = false) → combine v arrival q = none) ∧
    (v.combinable = false → combine v arrival q = none) ∧
    (∀ front x back, q = front ++ x :: back → x.val.combinable = false →
      (∀ y ∈ back, v.sameReading y.val = false) → combine v arrival q = none)) ∧
  (∀ (s : State) (v : EntryVal) (arrival : TimeStamp) (q : List Entry),
    combine v arrival s.evq = some q → s.offerItem v arrival = ({ s with evq := q }, true)) ∧
  (∀ (s : State) (v : EntryVal) (arrival : TimeStamp), combine v arrival s.evq = none →
    (ordinaryCount s.evq < 63 → s.offerItem v arrival =
      ({ s with evq := s.evq ++ [⟨v, arrival, 0, false⟩] }, true)) ∧
    (63 ≤ ordinaryCount s.evq →
      (v.combinable = true → s.offerItem v arrival =
        ({ s with dec := { s.dec with readingsDropped := tick32 s.dec.readingsDropped } }, false)) ∧
      (v.combinable = false → (∀ e ∈ s.evq, e.isGap = false) → s.offerItem v arrival =
        ({ s with evq := s.evq ++ [⟨.gap 1, arrival, 0, false⟩] }, false)) ∧
      (v.combinable = false → ∀ front back a tag c n,
        s.evq = front ++ ⟨.gap n, a, tag, c⟩ :: back → (∀ e ∈ front ++ back, e.isGap = false) →
        s.offerItem v arrival =
          ({ s with evq := front ++ back ++ [⟨.gap (tick32 n), a, tag, c⟩] }, false)))) ∧
  (∀ (v w : EntryVal), v.sameReading w = true ↔
    (∃ m a b, v = .meter m a ∧ w = .meter m b) ∨ ∃ f a b, v = .carton f a ∧ w = .carton f b)

/-- Every step keeps the unreleased records at consecutive sequences from the oldest on, with the
written sequence behind the last and everything written published. That this holds in every state, one
with an operation in flight among them, rests on the reading that an operation writes and publishes its
records in the one step of its row (log 28). -/
def Obligations.EveryStepKeepsJournalOrdered : Prop :=
  ∀ s t : State, s.jrn.ordered → step s = .next t → t.jrn.ordered

/-- Every step keeps the journal within its ring: the unreleased records stand in order and are at most
4,096; while an operation is in flight at least 80 places are free; and no Recent Batch ring holds more than
8 records. That published equals written in every state, one with an operation in flight among them, rests
on log 28. -/
def Obligations.EveryStepKeepsTheJournalWithinItsRing : Prop :=
  ∀ s t : State, JournalSound s → step s = .next t → JournalSound t

/-- An engine operation writes at most 80 records, what the engine keeps free before it takes an entry, and
publishes them; a CLEAR_ENGINE writes at most 18. -/
def Obligations.OperationsWriteAtMostEightyRecords : Prop :=
  ∀ s : State, (∀ f, f < 8 → (s.lin.filler f).ring.length ≤ 8) →
    (∀ e : TakenEntry, Taken s e → ∃ t ps, exec e.val.row s = .next t ∧
      t.jrn = (s.jrn.writeAll s.mgmt.clock e.tag ps).publish ∧ ps.length ≤ 80) ∧
    (∀ (w : Waiting) (rest : List Waiting), s.resetAsserted = false → s.inFlight = none →
      s.waiting = w :: rest → w.cmd = .clear → 80 ≤ s.jrn.free →
      ∃ t ps, exec .applyClearEngine s = .next t ∧
        t.jrn = (s.jrn.writeAll s.mgmt.clock w.tag ps).publish ∧ ps.length ≤ 18)

/-- A GAP entry sets the uncertain flag of every configured vessel, a FILLER's on its open batch, and
raises GAP with its count. -/
def Obligations.GapMakesEveryVesselUncertain : Prop :=
  ∀ (s : State) (e : TakenEntry) (n : Nat), Taken s e → e.val = .gap n →
    ∃ t l, exec .gapEntry s = .next t ∧
      OpResult s t e.tag l (s.raisedHold none (.gap n)) (s.raisedRecs none (.gap n)) [] ∧
      (∀ v, v < 64 → l.vessel v = { s.lin.vessel v with
        uncertain := if (s.lin.vessel v).kind = .store ∨ (s.lin.vessel v).kind = .bay then true
                     else (s.lin.vessel v).uncertain }) ∧
      (∀ v, v < 64 → (s.lin.vessel v).kind = .filler → (s.lin.vessel v).fillerIndex < 8 →
        l.filler (s.lin.vessel v).fillerIndex =
          (s.lin.filler (s.lin.vessel v).fillerIndex).modifyOpen (fun b => { b with uncertain := true })) ∧
      l = { s.lin with vessels := l.vessels, fillers := l.fillers }

/-! ## Vessels and transfers -/

/-- Largest-remainder apportionment over weights of which one is above 0 gives one portion for each
weight, and the portions sum to the volume. Each is its exact quotient rounded down, and one more where
fewer positions than the shortfall of the quotients stand before it, by a larger remainder, or among equal
remainders by an earlier place. Over weights that hold the volume no portion exceeds its own. -/
def Obligations.ApportionmentIsExact : Prop :=
  ∀ (v : Nat) (ws : List Nat), 0 < ws.sum →
    let rem := fun j => v * ws.getD j 0 % ws.sum
    let shortfall := v - (ws.map (fun w => v * w / ws.sum)).sum
    (apportion v ws).length = ws.length ∧ (apportion v ws).sum = v ∧
    ∀ k, k < ws.length →
      let ahead := (List.range ws.length).filter
        (fun j => decide (rem k < rem j ∨ (rem j = rem k ∧ j < k)))
      (apportion v ws).getD k 0 =
        v * ws.getD k 0 / ws.sum + (if ahead.length < shortfall then 1 else 0) ∧
      (v ≤ ws.sum → (apportion v ws).getD k 0 ≤ ws.getD k 0)

/-- What a draw of a volume above 0 yields. A HOLDING STORE that holds enough gives the portions of R29
over its shares and keeps what is left, without the shares that fell to 0; one that holds less gives every
share whole and the rest as U-0, is left empty, makes the destination uncertain and raises OVERDRAW; an
UNSEEDED one gives U-0 alone and makes the destination uncertain, OVERDRAW being raised where its row
reports and counted alone where not. A BAY gives from the slot at its discharge pointer the normal part by
remaining volume, the tolerance part up to the room left under the limit by manifest volume, and the rest as
U-0 with the destination uncertain and INTAKE_EXCESS; the slot's remaining volumes fall by the normal part
alone and its drawn total grows by the whole, up to 2^48 - 1. An EMPTY slot gives U-0 alone. Portions stand
in source order, U-0 last. A STORE's incoming category is its own, a BAY's the fold over its slot's records,
then 0 where the draw gave U-0, before any scaling (log 36). -/
def Obligations.DrawsYieldPortionsInSourceOrder : Prop :=
  ∀ (s : State) (src dst v tag : Nat), 0 < v →
    let x := s.lin.vessel src
    let d := s.draw src dst v tag
    let named := s.lin.namedFiller dst
    (x.kind = .store → x.state ≠ .unseeded → v ≤ total x.list →
      let ps := apportion v (x.list.map Share.vol)
      let after := List.zipWith (fun (y : Share) p => { y with vol := y.vol - p }) x.list ps
      d = { st := s.setLin (s.lin.setVessel src { x with list := after.filter (fun y => y.vol ≠ 0) })
            portions := placed (List.zipWith (fun (y : Share) p => Share.mk y.key p) x.list ps) 0
            incoming := x.cat
            gone := keysOf (after.filter (fun y => y.vol = 0)) }) ∧
    (x.kind = .store → x.state ≠ .unseeded → total x.list < v → (∀ y ∈ x.list, 0 < y.vol) →
      let excess := v - total x.list
      let emptied := s.setLin ((s.lin.setVessel src { x with list := [] }).setUncertain dst)
      d = { st := emptied.raise tag named (.overdraw src dst v excess)
            portions := placed x.list excess, incoming := x.cat, gone := keysOf x.list }) ∧
    (x.kind = .store → x.state = .unseeded →
      let u := s.setLin (s.lin.setUncertain dst)
      let counted := vset s.hold.counters 0 (tick32 (vget s.hold.counters 0 0))
      d = { st := if (vget s.hold.policy 0 {}).report = true
                  then u.raise tag named (.overdraw src dst v v)
                  else u.setHold { s.hold with counters := counted }
            portions := [⟨.unknown, v⟩], incoming := some 0, gone := [] }) ∧
    (x.kind = .bay →
      let ring := s.lin.ring x.bayIndex
      let c := ring.dischSlot
      let M := (c.shares.map CompShare.manifest).sum
      let vn := min v (c.shares.map CompShare.remaining).sum
      let vt := min (v - vn) (M * (1000 + x.tolerance) / 1000 - max c.drawn M)
      let ve := v - vn - vt
      let normal := apportion vn (c.shares.map CompShare.remaining)
      let spread := apportion vt (c.shares.map CompShare.manifest)
      let portions := placed (List.zipWith (fun (y : CompShare) p => Share.mk y.key p) c.shares
        (List.zipWith (· + ·) normal spread)) ve
      let after : Slot := { c with
        shares := List.zipWith (fun (y : CompShare) p => { y with remaining := y.remaining - p })
          c.shares normal
        drawn := if c.tag = .discharging then min (c.drawn + v) (2 ^ 48 - 1) else c.drawn }
      let fold := c.shares.foldl (fun a y => s.lin.merge a (s.lin.keyCat y.key)) none
      let u := s.setLin (s.lin.setRing x.bayIndex { ring with slots := vset ring.slots ring.disch after })
      (c = {} → d =
        { st := (s.setLin (s.lin.setUncertain dst)).raise tag named
            (.intakeExcess src ring.disch 0 0 dst v v)
          portions := [⟨.unknown, v⟩], incoming := some 0, gone := [] }) ∧
      (c.tag ≠ .empty → d =
        { st := if ve = 0 then u else (u.setLin (u.lin.setUncertain dst)).raise tag named
            (.intakeExcess src ring.disch c.tanker c.comp dst v ve)
          portions := portions
          incoming := if Key.unknown ∈ keysOf portions then s.lin.merge fold (some 0) else fold
          gone := [] }))

/-- The merge of a portion list that carries no key twice. A list of 12 shares or fewer stands. Else, with
no free blend entry, it is truncated. With one free, a destination of 2 shares or more becomes one blend of
what it held, of its own category, and the portions are merged onto that blend; a list still above 12, or a
destination of fewer than 2 shares, gives the known portions as one blend of the incoming category behind
its base list, with U-0 merged after it; where that second blend finds no entry the list is truncated. Each
blend takes the next serial, is formed in the destination now, is suspect when a member is, and is written
in a BLEND record; formed under category NONE it has category 0 (log 22). Truncation sets the uncertain
flag, writes the TRUNCATION record and raises TRUNCATED. -/
def Obligations.MergesCollapseOrTruncate : Prop :=
  ∀ (s : State) (dst : Nat) (pre ps : List Share) (incoming : Cat) (tag : Nat), (keysOf ps).Nodup →
    let m := s.mergeList dst pre ps incoming tag
    let named := s.lin.namedFiller dst
    let merged := joined pre ps
    let known := ps.filter (fun y => y.key ≠ .unknown)
    let unknown := ps.filter (fun y => y.key = .unknown)
    let keyIn := fun (u : State) => Key.blend u.lin.issueBlend
    let formed := fun (u : State) (cat : Cat) (members : List Share) =>
      let r : BlendRec :=
        { serial := u.lin.issueBlend, cat := cat.getD 0, direct := false,
          derived := u.lin.listSuspect (keysOf members), refs := 0,
          info := some { created := s.mgmt.clock, vessel := dst, members := members } }
      ({ u with
        lin := { u.lin with blends := insertLowest r 0 u.lin.blends, blendNext := nextSerial r.serial }
        jrn := u.jrn.write s.mgmt.clock tag (.blend { r with refs := 1 }) } : State)
    let cut := fun (u : State) (l : List Share) =>
      State.raise { u with
        lin := u.lin.setUncertain dst
        jrn := u.jrn.write s.mgmt.clock tag (.truncation dst s.mgmt.clock (truncateList l).2) }
        tag named (.truncated dst (truncateList l).2.length)
    let resident := s.lin.blends.length
    (merged.length ≤ 12 → m = { st := s, final := merged, blendA := none, blendB := none,
                                members := [], truncated := false }) ∧
    (12 < merged.length →
      (1024 ≤ resident → m = { st := cut s merged, final := (truncateList merged).1, blendA := none,
                               blendB := none, members := [], truncated := true }) ∧
      (resident < 1024 → pre.length < 2 → m =
        { st := formed s incoming known
          final := joined (pre ++ [⟨keyIn s, total known⟩]) unknown
          blendA := none, blendB := some (keyIn s), members := keysOf known, truncated := false }) ∧
      (resident < 1024 → 2 ≤ pre.length →
        let u := formed s (s.lin.catOf (s.lin.vessel dst)) pre
        let base : List Share := [⟨keyIn s, total pre⟩]
        let redone := joined base ps
        (redone.length ≤ 12 → m = { st := u, final := redone, blendA := some (keyIn s), blendB := none,
                                    members := keysOf pre, truncated := false }) ∧
        (12 < redone.length →
          (1023 ≤ resident → m =
            { st := cut u redone, final := (truncateList redone).1, blendA := some (keyIn s),
              blendB := none, members := keysOf pre, truncated := true }) ∧
          (resident < 1023 → m =
            { st := formed u incoming known
              final := joined (base ++ [⟨keyIn u, total known⟩]) unknown
              blendA := some (keyIn s), blendB := some (keyIn u)
              members := keysOf pre ++ keysOf known, truncated := false })))) ∧
    (s.lin.resident (.blend s.lin.blendNext) = false → s.lin.issueBlend = s.lin.blendNext) ∧
    (∀ l : Lineage, l.blends.length ≤ 1024 → 1 ≤ l.blendNext → l.blendNext ≤ 268435455 →
      FirstFreeSerial (fun n => ∃ b ∈ l.blends, b.2.serial = n) l.blendNext l.issueBlend)

/-- Truncation of a list of more than 12 shares that carries no key twice leaves 12 shares of the same
content. The shares removed are known ones, the smallest of the list, in rising order of volume, the later
place first among equals; as many are removed as are above 12, and one more where the list held no U-0. The
others keep their places and volumes; the volume removed is added to U-0 in its place, or stands as U-0 at
the end. -/
def Obligations.TruncationFoldsTheSmallestIntoUnknown : Prop :=
  ∀ l : List Share, (keysOf l).Nodup → 12 < l.length →
    let kept := (truncateList l).1
    let removed := (truncateList l).2
    let first := fun (y z : Share) => y.vol < z.vol ∨ (y.vol = z.vol ∧ l.idxOf z < l.idxOf y)
    let stay := l.filter (fun y => y ∉ removed)
    kept.length = 12 ∧ total kept = total l ∧
    removed.length = l.length - 12 + (if Key.unknown ∈ keysOf l then 0 else 1) ∧
    (∀ y ∈ removed, y ∈ l ∧ y.key ≠ .unknown) ∧ removed.Pairwise first ∧
    (∀ y ∈ removed, ∀ z ∈ stay, z.key ≠ .unknown → first y z) ∧
    kept = if Key.unknown ∈ keysOf l
      then stay.map (fun y => if y.key = .unknown then { y with vol := y.vol + total removed } else y)
      else stay ++ [⟨.unknown, total removed⟩]

/-- A transfer merges what its draw yields. With the destination prepared and the draw made, portions above
the room under 1,000,000,000 cL are scaled to it, those at 0 dropped, the destination made uncertain and
OVERFILL raised with what is discarded; the merge gives the destination's list. Where a portion is merged
the incoming category is merged into the destination's, and a change from a category raises CATEGORY_CHANGE.
A STORE whose content crosses its capacity with nothing discarded raises OVERFILL with 0. The destination
is uncertain where it was, where the draw, the ceiling or truncation made it so, and where a portion came
from an uncertain source; its suspect flag and the source's follow their lists. Keys gain and lose
references as R42 says. No other vessel changes, and no port gains a notice but in the preparation. -/
def Obligations.TransfersMergeWhatIsDrawn : Prop :=
  ∀ (s : State) (src dst v tag : Nat) (doubt : Bool),
    let a := s.lin.vessel src
    let b := s.lin.vessel dst
    src ≠ dst → 0 < v → (a.kind = .store ∨ a.kind = .bay) →
    (b.kind = .store ∨ (b.kind = .filler ∧ b.fillerIndex < 8 ∧
      ((s.lin.filler b.fillerIndex).state = .idle ∨ (s.lin.openBatchOf b).isSome = true))) →
    s.lin.isCleaning src = false → s.lin.isCleaning dst = false →
    (b.kind = .store → b.state = .unseeded → b.list = []) →
    let named := s.lin.namedFiller dst
    let pre := s.lin.listOf b
    let C := total pre
    let d := (s.prepareDst dst tag doubt).draw src dst v tag
    let Q := total d.portions
    let L := 1000000000 - C
    let ps := if C + Q ≤ 1000000000 then d.portions else
      (List.zipWith (fun (y : Share) p => Share.mk y.key p) d.portions
        (apportion L (d.portions.map Share.vol))).filter (fun y => y.vol ≠ 0)
    let discarded := if C + Q ≤ 1000000000 then 0 else Q - L
    let m := (if discarded = 0 then d.st
      else (d.st.setUncertain dst).raise tag named (.overfill dst discarded)).mergeList
        dst pre ps d.incoming tag
    let old := if b.kind = .store ∧ b.state = .unseeded then some 0 else s.lin.catOf b
    let new := if ps = [] then old else s.lin.merge old d.incoming
    let k1 := match old, new with
      | some i, some j => if i = j then m.st else m.st.raise tag named (.categoryChange dst i j)
      | _, _ => m.st
    let k2 := if b.kind = .store ∧ discarded = 0 ∧ C ≤ b.capacity ∧ b.capacity < total m.final
      then k1.raise tag none (.overfill dst 0) else k1
    let doubtful := d.st.lin.uncertainOf (d.st.lin.vessel dst) = true ∨ discarded ≠ 0 ∨
      m.truncated = true ∨ (ps ≠ [] ∧ a.uncertain = true)
    let formed := m.blendA.toList ++ m.blendB.toList
    let gained := (keysOf m.final).filter
      (fun k => (m.blendA ≠ none ∨ k ∉ keysOf pre) ∧ k ∉ formed) ++ m.members ++ formed
    let lost := match m.blendA with
      | none => (keysOf pre).filter (fun k => k ∉ keysOf m.final)
      | some k => keysOf pre ++ (if k ∈ keysOf m.final then [] else [k])
    let settled := (m.st.lin.addRefs gained).releaseAll (d.gone ++ lost)
    let r := s.transfer src dst v tag doubt
    let l := r.st.lin
    r.merged = ps ∧ r.discarded = discarded ∧ r.stepA = m.blendA.isSome ∧ r.stepB = m.blendB.isSome ∧
    r.truncated = m.truncated ∧ (∀ q, r.st.port q = (s.prepareDst dst tag doubt).port q) ∧
    r.st.jrn = k2.jrn ∧ r.st.hold = k2.hold ∧
    l.colls = settled.colls ∧ l.blends = settled.blends ∧ l.blendNext = m.st.lin.blendNext ∧
    l.listOf (l.vessel dst) = m.final ∧ l.catOf (l.vessel dst) = new ∧
    (l.uncertainOf (l.vessel dst) = true ↔ doubtful) ∧
    l.suspectOf (l.vessel dst) = l.listSuspect (keysOf m.final) ∧
    (b.kind = .store → l.vessel dst = { b with
      state := .holding, list := m.final, cat := new
      uncertain := decide doubtful, suspect := l.listSuspect (keysOf m.final) }) ∧
    (b.kind = .filler → l.vessel dst = b) ∧
    l.vessel src = { d.st.lin.vessel src with
      suspect := if a.kind = .store then l.listSuspect (keysOf (d.st.lin.vessel src).list)
                 else l.ringSuspect (l.ring a.bayIndex) } ∧
    l.rings = d.st.lin.rings ∧ (∀ u, u ≠ src → u ≠ dst → l.vessel u = s.lin.vessel u)

/-- A transfer between two vessels conserves volume. A STORE that is HOLDING and a BAY's slot fall by
what is drawn, at most what they hold; an UNSEEDED STORE is unchanged; the destination grows by the
whole volume up to the ceiling of 1,000,000,000 cL; what does not fit is reported as discarded; and the
destination's list is of at most 12 shares. -/
def Obligations.TransfersConserveVolume : Prop :=
  ∀ (s : State) (src dst v tag : Nat) (doubt : Bool),
    let a := s.lin.vessel src
    let b := s.lin.vessel dst
    src ≠ dst → 0 < v → (a.kind = .store ∨ a.kind = .bay) →
    (b.kind = .store ∨ (b.kind = .filler ∧ b.fillerIndex < 8 ∧
      ((s.lin.filler b.fillerIndex).state = .idle ∨ (s.lin.openBatchOf b).isSome = true))) →
    s.lin.isCleaning src = false → s.lin.isCleaning dst = false →
    (b.kind = .store → b.state = .unseeded → b.list = []) → ListSound (s.lin.listOf b) →
    (a.kind = .bay → a.bayIndex < 8 ∧ (s.lin.ring a.bayIndex).disch < 6) →
    let r := s.transfer src dst v tag doubt
    let l := r.st.lin
    l.content (l.vessel dst) + r.discarded = s.lin.content b + v ∧
    l.content (l.vessel dst) = max (s.lin.content b) (min (s.lin.content b + v) 1000000000) ∧
    (l.listOf (l.vessel dst)).length ≤ 12 ∧
    (a.kind = .store → a.state = .holding → total (l.vessel src).list = total a.list - v) ∧
    (a.kind = .store → a.state = .unseeded → (l.vessel src).list = a.list) ∧
    (a.kind = .bay →
      let c := (s.lin.ring a.bayIndex).dischSlot
      (l.ring a.bayIndex).content = (s.lin.ring a.bayIndex).content -
        if c.tag = .empty then 0 else min v c.remainingTotal)

/-- Flow into an idle FILLER opens a batch before it draws, of opening cause AUTO, with the vessel's auto
product and declared category NONE, coded and offered to the coder as any other; the BATCH_OPEN record
stands first, then CODE_EXHAUSTED, CODE_UNSENT and NO_BATCH where they apply. A flag set for the filler
before, by a jump or a capped reading, is set on the new batch, behind the opening's record (log 35). After
a transfer into a FILLER its last-flow time is now, its idle timer starts again, the open batch holds the
merged list, category and flags, and its mismatch flag follows a change of its content category: it is set
exactly where a declared category merges with the new one to another. Nothing else of the fillers changes; a
transfer into a STORE leaves every filler alone. -/
def Obligations.FlowOpensBatchesAndRestartsTimers : Prop :=
  ∀ (s : State) (dst tag : Nat) (doubt : Bool),
    let x := s.lin.vessel dst
    let f := x.fillerIndex
    let timer := if x.idleTimeout = 0 then none else some (s.mgmt.elapsed + x.idleTimeout * 100)
    (x.kind = .filler → f < 8 → (s.lin.filler f).state = .idle →
      let y := s.lin.filler f
      let port := s.port x.coderPort
      let out := y.seq = 100000
      let unsent := ¬ out ∧ (port.linkUp = false ∨ 8 ≤ port.inj.length + port.reservations)
      let t := s.prepareDst dst tag doubt
      ∃ o : Batch,
        o = { serial := o.serial, code := o.code, filler := f, number := x.fillerNumber,
              product := x.autoProduct, declared := none, openTime := s.mgmt.clock, cause := .auto,
              indefinite := decide out, unsent := decide unsent,
              firstSerial := if y.seen = true then some ((y.lastCarton + 1) % 2 ^ 32) else none,
              list := [], cat := none, uncertain := false, mismatch := false, suspect := false,
              produced := 0, dispatched := 0, closeTime := none, reason := .stillOpen } ∧
        ((∀ g, g < 8 → ∀ b ∈ (s.lin.filler g).ring, b.serial ≠ s.lin.batchNext) →
          o.serial = s.lin.batchNext) ∧
        ((∀ g, g < 8 → (s.lin.filler g).ring.length ≤ 8) → 1 ≤ s.lin.batchNext →
          s.lin.batchNext ≤ 268435455 →
          FirstFreeSerial (fun n => ∃ g, g < 8 ∧ ∃ b ∈
            (if g ≠ f then (s.lin.filler g).ring else if y.ring.length < 8 then y.ring
             else y.ring.drop 1), b.serial = n) s.lin.batchNext o.serial) ∧
        (out → o.code = 999999999999999999) ∧
        (¬ out → o.code % 97 = 1 ∧ o.code / 100 = s.mgmt.plant * 10 ^ 12 + x.fillerNumber * 10 ^ 10 +
          (if s.mgmt.clockSet = true then s.mgmt.clock.day else 0) * 10 ^ 5 + y.seq) ∧
        t.lin.filler f = { y with
          state := .batchOpen, seq := if out then y.seq else y.seq + 1, timer := timer
          ring := (if y.ring.length < 8 then y.ring else y.ring.drop 1) ++
            [{ o with uncertain := doubt }] } ∧
        (∀ g, g ≠ f → t.lin.filler g = s.lin.filler g) ∧
        (let k := s.lin.releaseAll (if y.ring.length < 8 then []
           else (y.ring.head?.map (fun b => keysOf b.list)).getD [])
         t.lin = { s.lin with fillers := t.lin.fillers, batchNext := nextSerial o.serial,
                              colls := k.colls, blends := k.blends }) ∧
        t.port x.coderPort = (if out ∨ unsent then port
          else { port with inj := port.inj ++ [.notice (s.noticeFor x o)] }) ∧
        t.port x.coderPort.other = s.port x.coderPort.other ∧
        (let raised := ((if out then [CondVals.codeExhausted f o.serial] else []) ++
            (if unsent then [CondVals.codeUnsent f o.serial x.coderPort] else []) ++
            [CondVals.noBatch f o.serial]).foldl (fun u c => u.raise tag (some f) c)
              (s.write tag (.batchOpened o
                (if y.ring.length < 8 then none else y.ring.head?.map Batch.serial)))
         t.jrn = raised.jrn ∧ t.hold = raised.hold)) ∧
    (∀ src v, src ≠ dst → 0 < v → (s.lin.vessel src).kind = .store ∨ (s.lin.vessel src).kind = .bay →
      let l := (s.transfer src dst v tag doubt).st.lin
      let z := (s.prepareDst dst tag doubt).lin.filler f
      (x.kind = .store → l.fillers = s.lin.fillers) ∧
      (x.kind = .filler → f < 8 → (s.lin.filler f).state ≠ .cleaning → ∀ older o,
        z.ring = older ++ [o] →
        let now := l.vessel dst
        l.filler f = { z with
          lastFlow := s.mgmt.clock, timer := timer
          ring := older ++ [{ o with
            list := l.listOf now, cat := l.catOf now, uncertain := l.uncertainOf now
            suspect := l.listSuspect (keysOf (l.listOf now))
            mismatch := if l.catOf now = o.cat then o.mismatch
              else decide (o.declared ≠ none ∧ s.lin.merge o.declared (l.catOf now) ≠ o.declared) }] } ∧
        ∀ g, g ≠ f → l.filler g = s.lin.filler g))

/-- MANUAL_TRANSFER: BAD_ARGUMENT for a vessel above 63, equal vessels, a volume of 0 or above
1,000,000,000 cL, a source that is no STORE or BAY, or a destination that is no STORE or FILLER; then
BUSY for a vessel in CLEANING; both leave everything and write the MANUAL record ahead of the hold
evaluation, where the model places it (log 24). Else the transfer is made, and after the hold evaluation
the MANUAL record is written with result DONE and its outcome. -/
def Obligations.ManualTransferChecksThenMoves : Prop :=
  ∀ (s : State) (e : TakenEntry) (src dst v : Nat), Taken s e → e.val = .manualTransfer src dst v →
    let wrong := 63 < src ∨ 63 < dst ∨ src = dst ∨ v = 0 ∨ 1000000000 < v ∨
      ((s.lin.vessel src).kind ≠ .store ∧ (s.lin.vessel src).kind ≠ .bay) ∨
      ((s.lin.vessel dst).kind ≠ .store ∧ (s.lin.vessel dst).kind ≠ .filler)
    let cleaning := s.lin.isCleaning src = true ∨ s.lin.isCleaning dst = true
    (wrong → ∃ t, exec .manualTransferEntry s = .next t ∧
      OpResult s t e.tag s.lin s.hold [.manual .badArgument src dst v none] []) ∧
    (¬ wrong → cleaning → ∃ t, exec .manualTransferEntry s = .next t ∧
      OpResult s t e.tag s.lin s.hold [.manual .busy src dst v none] []) ∧
    (¬ wrong → ¬ cleaning →
      let moved := s.transfer src dst v e.tag false
      ∃ t ps, exec .manualTransferEntry s = .next t ∧
        OpResult s t e.tag moved.st.lin moved.st.hold ps
          [.manual .done src dst v (some
            { portions := moved.merged, discarded := moved.discarded, stepA := moved.stepA,
              stepB := moved.stepB, truncated := moved.truncated })] ∧
        (∀ q, t.port q = moved.st.port q) ∧ moved.st.jrn = s.jrn.writeAll s.mgmt.clock e.tag ps)

/-- Every step keeps the lineage state sound, routes being resolved: reference counts equal the entries
of lists that carry their key, no resident record has count 0, every listed key is U-0 or resident, lists
stay bounded, and what is not HOLDING is empty. -/
def Obligations.EveryStepKeepsLineageSound : Prop :=
  ∀ s t : State, LineageSound s.lin → RoutesResolved s → step s = .next t → LineageSound t.lin

/-- VESSEL_WRITE: BAD_ARGUMENT for a vessel that is no STORE, BUSY for one CLEANING, BAD_ARGUMENT for a
list, a category or, by the model's choice, an uncertain byte out of range (log 16), TABLE_FULL without
room for the records it needs; each leaves everything. Else the STORE is HOLDING with the list, category
and flag of the command and its suspect flag re-derived; the tables hold an opaque record for every key
that was not resident, the list's keys gain a reference and the old list's are released. -/
def Obligations.VesselWriteReplacesTheContent : Prop :=
  ∀ (s : State) (e : TakenEntry) (w : WriteArgs), Taken s e → e.val = .vesselWrite w →
    let x := s.lin.vessel w.vessel
    let fits := w.entries.length ≤ 12 ∧ (w.entries.map WriteEntry.key).Nodup ∧
      (∀ n ∈ w.entries, n.key.toKey ≠ none ∧ n.vol ≠ 0 ∧ n.cat ≤ 7) ∧
      (w.cat ≤ 7 ∨ w.cat = 0xFF) ∧ (w.cat = 0xFF → w.entries = []) ∧ total w.list ≤ x.capacity ∧
      w.uncertain ≤ 1
    let room := ((keysOf w.list).filter s.lin.newCollKey).length + s.lin.colls.length ≤
        max 2048 s.lin.colls.length ∧
      ((keysOf w.list).filter s.lin.newBlendKey).length + s.lin.blends.length ≤
        max 1024 s.lin.blends.length
    let refused := fun (r : Status) => ∃ t, exec .vesselWriteEntry s = .next t ∧
      OpResult s t e.tag s.lin s.hold
        [.vessel { vessel := w.vessel, action := .write, result := r }] []
    (x.kind ≠ .store → refused .badArgument) ∧
    (x.kind = .store → x.state = .cleaning → refused .busy) ∧
    (x.kind = .store → x.state ≠ .cleaning → ¬ fits → refused .badArgument) ∧
    (x.kind = .store → x.state ≠ .cleaning → fits → ¬ room → refused .tableFull) ∧
    (x.kind = .store → x.state ≠ .cleaning → fits → room →
      ∃ t l cat, exec .vesselWriteEntry s = .next t ∧ catOfByte w.cat = some cat ∧
        OpResult s t e.tag l s.hold [.vessel
          { vessel := w.vessel, action := .write, result := .done, cat := cat,
            uncertain := decide (w.uncertain = 1), count := s.lin.opaqueCount (keysOf w.list),
            list := w.list }] [] ∧
        l.vessel w.vessel = { x with
          state := .holding, list := w.list, cat := cat, uncertain := decide (w.uncertain = 1),
          suspect := l.listSuspect (keysOf w.list) } ∧
        (∀ u, u ≠ w.vessel → l.vessel u = s.lin.vessel u) ∧
        (let k := ((w.entries.foldl Lineage.makeOpaque s.lin).addRefs (keysOf w.list)).releaseAll
            (keysOf x.list)
         l = { s.lin with colls := k.colls, blends := k.blends, vessels := l.vessels }))

/-- CIP_START by the kind of its vessel. Kind NONE: BAD_ARGUMENT. Already CLEANING: BUSY. A STORE's list
is recorded and released and the STORE empty and CLEANING; a BAY's occupied slots are closed in order
with reason CLEANED, its ring cleared and the BAY CLEANING; a FILLER's open batch is closed with reason
CIP and the filler CLEANING. CIP_END: BAD_ARGUMENT for kind NONE, a STORE or BAY that is HOLDING, and a
FILLER not CLEANING; else a STORE is HOLDING and empty of category NONE with both flags clear, a BAY
HOLDING with its ring cleared, a FILLER idle. -/
def Obligations.CleaningActsByKind : Prop :=
  (∀ (s : State) (e : TakenEntry) (v : Nat), Taken s e → e.val = .cipStart v →
    let x := s.lin.vessel v
    let result := fun (l : Lineage) (ps : List Payload) => ∃ t, exec .cipStartEntry s = .next t ∧
      OpResult s t e.tag l s.hold ps []
    let rec_ := fun (r : Status) => Payload.vessel { vessel := v, action := .cipStart, result := r }
    (x.kind = .unconfigured → result s.lin [rec_ .badArgument]) ∧
    (s.lin.isCleaning v = true → x.kind ≠ .unconfigured → result s.lin [rec_ .busy]) ∧
    (x.kind = .store → x.state ≠ .cleaning →
      let k := s.lin.releaseAll (keysOf x.list)
      result ({ s.lin with colls := k.colls, blends := k.blends }.setVessel v
        { x with state := .cleaning, list := [], cat := none, uncertain := false, suspect := false })
        [.vessel { vessel := v, action := .cipStart, result := .done, cat := x.cat,
                   content := total x.list, list := x.list }]) ∧
    (x.kind = .bay → x.state ≠ .cleaning →
      let ring := s.lin.ring x.bayIndex
      let k := s.lin.releaseAll
        (ring.occupied.flatMap (fun j => (ring.slot j).shares.map CompShare.key))
      result (({ s.lin with colls := k.colls, blends := k.blends }.setRing x.bayIndex
          { slots := Vector.replicate 6 {}, fill := 0, disch := 0 }).setVessel v
          { x with state := .cleaning, uncertain := false, suspect := false })
        (ring.occupied.map (fun j => s.compartmentRec v x.bayIndex j .cleaned) ++
          [.vessel { vessel := v, action := .cipStart, result := .done,
                     count := ring.occupied.length }])) ∧
    (x.kind = .filler → (s.lin.filler x.fillerIndex).state = .idle →
      result (s.lin.setFiller x.fillerIndex
        { s.lin.filler x.fillerIndex with state := .cleaning }) [rec_ .done]) ∧
    (x.kind = .filler → ∀ b older, (s.lin.filler x.fillerIndex).state = .batchOpen →
      (s.lin.filler x.fillerIndex).ring = older ++ [b] →
      result (s.lin.setFiller x.fillerIndex { s.lin.filler x.fillerIndex with
          state := .cleaning, timer := none, ring := older ++ [b.closedAs s.mgmt.clock .cip] })
        [.batchClosed (b.closedAs s.mgmt.clock .cip) none, rec_ .done])) ∧
  (∀ (s : State) (e : TakenEntry) (v : Nat), Taken s e → e.val = .cipEnd v →
    let x := s.lin.vessel v
    let result := fun (l : Lineage) (r : Status) => ∃ t, exec .cipEndEntry s = .next t ∧
      OpResult s t e.tag l s.hold [.vessel { vessel := v, action := .cipEnd, result := r }] []
    (x.kind = .unconfigured → result s.lin .badArgument) ∧
    (x.kind = .store → x.state = .holding → result s.lin .badArgument) ∧
    (x.kind = .store → x.state ≠ .holding → result (s.lin.setVessel v
      { x with state := .holding, list := [], cat := none, uncertain := false, suspect := false })
      .done) ∧
    (x.kind = .bay → x.state ≠ .cleaning → result s.lin .badArgument) ∧
    (x.kind = .bay → x.state = .cleaning → result ((s.lin.setRing x.bayIndex
        { slots := Vector.replicate 6 {}, fill := 0, disch := 0 }).setVessel v
      { x with state := .holding, uncertain := false, suspect := false }) .done) ∧
    (x.kind = .filler → (s.lin.filler x.fillerIndex).state ≠ .cleaning →
      result s.lin .badArgument) ∧
    (x.kind = .filler → (s.lin.filler x.fillerIndex).state = .cleaning →
      result (s.lin.setFiller x.fillerIndex
        { s.lin.filler x.fillerIndex with state := .idle }) .done))

/-! ## Intake bays -/

/-- A MANIFEST is refused at the first check that fails: no bay, a field out of range, the bay CLEANING,
a matching slot of 12 shares, no EMPTY slot, the content ceiling, a full Collection Table; each raises its
condition and changes nothing else. One that passes every check creates one collection record, written to
the journal, named by the first serial from the counter on that names no resident record, and with the time at which the engine took the entry,
and joins the matching slot's list, or claims the first EMPTY slot from the fill pointer on, which becomes
DISCHARGING where no slot is, else LOADED. The bay's suspect flag follows its ring; nothing else changes. -/
def Obligations.ManifestsAreAdmittedOrRefused : Prop :=
  (∀ (s : State) (e : TakenEntry) (i : ManifestItem), Taken s e → e.val = .manifest i →
    let ring := s.lin.ring i.bay
    let refused := fun (c : CondVals) => ∃ t, exec .manifestEntry s = .next t ∧
      OpResult s t e.tag s.lin (s.raisedHold none c) (s.raisedRecs none c) []
    let inRange := i.tanker ≤ 65535 ∧ 1 ≤ i.comp ∧ i.comp ≤ 15 ∧ i.farm ≤ 16777215 ∧ i.cat ≤ 7 ∧
      1 ≤ i.vol ∧ i.vol ≤ 1000000000
    (s.lin.bayVessel i.bay = none → refused (.compartmentUnknown (i.who none) .noBay)) ∧
    (∀ v, s.lin.bayVessel i.bay = some v →
      (¬ inRange → refused (.compartmentUnknown (i.who (some v)) .invalidField)) ∧
      (inRange → s.lin.isCleaning v = true → refused (.bayRingFull (i.who (some v)))) ∧
      (inRange → s.lin.isCleaning v = false →
        (∀ k, ring.matching i.tanker i.comp = some k → 12 ≤ (ring.slot k).shares.length →
          refused (.compartmentFull (i.who (some v)) k)) ∧
        (ring.matching i.tanker i.comp = none → ring.occupied.length = 6 →
          refused (.bayRingFull (i.who (some v)))) ∧
        (((∃ k, ring.matching i.tanker i.comp = some k ∧ (ring.slot k).shares.length < 12) ∨
            (ring.matching i.tanker i.comp = none ∧ ring.occupied.length < 6)) →
          (1000000000 < ring.content + i.vol → refused (.overfill v i.vol)) ∧
          (ring.content + i.vol ≤ 1000000000 → 2048 ≤ s.lin.colls.length →
            refused (.collTableFull (i.who (some v)))))))) ∧
  (∀ (s : State) (e : TakenEntry) (i : ManifestItem) (v k : Nat), Taken s e → e.val = .manifest i →
    i.bay < 8 → s.lin.bayVessel i.bay = some v → i.valid = true → s.lin.isCleaning v = false →
    s.lin.colls.length < 2048 → (s.lin.ring i.bay).content + i.vol ≤ 1000000000 →
    let ring := s.lin.ring i.bay
    let claims := ring.matching i.tanker i.comp = none
    (ring.matching i.tanker i.comp = some k ∧ (ring.slot k).shares.length < 12 ∨
      claims ∧ (slotsFrom ring.fill).find? (fun j => (ring.slot j).tag == .empty) = some k) →
    let c : CollRec :=
      { serial := s.lin.issueColl, cat := Fin.ofNat 8 i.cat, mark := s.lin.farms.contains i.farm,
        refs := 1, info := some
          { farm := i.farm, tanker := i.tanker, comp := i.comp, manifestVol := i.vol,
            sample := i.sample, collTime := i.collTime, bay := i.bay, intakeTime := e.takenAt } }
    let share : CompShare := { key := .coll c.serial, remaining := i.vol, manifest := i.vol }
    ∃ t l, exec .manifestEntry s = .next t ∧ OpResult s t e.tag l s.hold [.collection c] [] ∧
      l.colls = insertLowest c 0 s.lin.colls ∧ l.collNext = nextSerial c.serial ∧
      (1 ≤ s.lin.collNext → s.lin.collNext ≤ 268435455 →
        FirstFreeSerial (fun n => ∃ x ∈ s.lin.colls, x.2.serial = n) s.lin.collNext c.serial) ∧
      (∀ j, j < 6 → (l.ring i.bay).slot j =
        if j ≠ k then ring.slot j
        else if claims then
          { tag := if ring.discharging = none then .discharging else .loaded, tanker := i.tanker,
            comp := i.comp, shares := [share], drawn := 0, openTime := s.mgmt.clock }
        else { ring.slot j with shares := (ring.slot j).shares ++ [share] }) ∧
      (l.ring i.bay).fill = (if claims then (k + 1) % 6 else ring.fill) ∧
      (l.ring i.bay).disch = (if claims ∧ ring.discharging = none then k else ring.disch) ∧
      (∀ b, b ≠ i.bay → l.ring b = s.lin.ring b) ∧
      l.vessel v = { s.lin.vessel v with suspect := l.ringSuspect (l.ring i.bay) } ∧
      (∀ u, u ≠ v → l.vessel u = s.lin.vessel u) ∧
      l = { s.lin with colls := l.colls, collNext := l.collNext, rings := l.rings,
                       vessels := l.vessels })

/-- COMP_SELECT, COMP_DONE and COMP_REJECT. Without the bay, a matching slot or a DISCHARGING slot,
COMPARTMENT_UNKNOWN is raised and nothing else changes. COMP_SELECT makes the matching slot DISCHARGING
and the slot that was LOADED; COMP_DONE closes the DISCHARGING slot and COMP_REJECT the matching one;
after the close of a DISCHARGING slot the next LOADED one in order becomes DISCHARGING. -/
def Obligations.CompartmentsAreSelectedAndClosed : Prop :=
  ∀ (s : State) (e : TakenEntry) (bay tanker comp : Nat), Taken s e → bay < 8 →
    let ring := s.lin.ring bay
    let ended := fun (l : Lineage) (h : HoldUnit) (ps : List Payload) => ∃ t,
      exec e.val.row s = .next t ∧ OpResult s t e.tag l h ps []
    let unknown := fun (v : Option Nat) (x y : Nat) (cause : UnknownCause) =>
      let c := CondVals.compartmentUnknown
        { vessel := v, bay := bay, tanker := x, comp := y, farm := 0 } cause
      ended s.lin (s.raisedHold none c) (s.raisedRecs none c)
    let closes := fun (v k : Nat) (reason : SlotReason) (next : Option Nat) => ∃ l,
      ended l s.hold [s.compartmentRec v bay k reason] ∧ SlotClosed s.lin l v bay k next
    let nextLoaded := fun (k : Nat) => (slotsFrom (k + 1)).find?
      (fun j => j != k && (ring.slot j).tag == .loaded)
    (e.val = .compSelect bay tanker comp →
      (s.lin.bayVessel bay = none → unknown none tanker comp .noBay) ∧
      (∀ v, s.lin.bayVessel bay = some v →
        (ring.matching tanker comp = none → unknown (some v) tanker comp .noMatch) ∧
        (∀ k, ring.matching tanker comp = some k →
          ((ring.slot k).tag = .discharging → ended s.lin s.hold []) ∧
          ((ring.slot k).tag = .loaded → ∃ l, ended l s.hold [] ∧
            (∀ j, j < 6 → (l.ring bay).slot j =
              if j = k then { ring.slot j with tag := .discharging }
              else if ring.discharging = some j then { ring.slot j with tag := .loaded }
              else ring.slot j) ∧
            (l.ring bay).fill = ring.fill ∧ (l.ring bay).disch = k ∧
            l = s.lin.setRing bay (l.ring bay))))) ∧
    (e.val = .compDone bay →
      (s.lin.bayVessel bay = none → unknown none 0 0 .noBay) ∧
      (∀ v, s.lin.bayVessel bay = some v →
        (ring.discharging = none → unknown (some v) 0 0 .notDischarging) ∧
        (∀ k, ring.discharging = some k → closes v k .done (nextLoaded k)))) ∧
    (e.val = .compReject bay tanker comp →
      (s.lin.bayVessel bay = none → unknown none tanker comp .noBay) ∧
      (∀ v, s.lin.bayVessel bay = some v →
        (ring.matching tanker comp = none → unknown (some v) tanker comp .noMatch) ∧
        (∀ k, ring.matching tanker comp = some k →
          ((ring.slot k).tag = .discharging → closes v k .rejected (nextLoaded k)) ∧
          ((ring.slot k).tag = .loaded → closes v k .rejected none))))

/-! ## Fillers and batches -/

/-- BATCH_OPEN: BAD_ARGUMENT without a FILLER of the index or with a category out of range, BUSY while
CLEANING; both change nothing. Else an open batch is closed as SUPERSEDED, a ring of 8 loses its oldest,
and the new batch joins with its serial, the first from the counter on that no ring then holds, and its
code, of which the remainder by 97 is 1, or the indefinite code with CODE_EXHAUSTED where the sequence has
run out. A code is offered to the coder in one notice; where the port has no place for it the batch is
unsent and CODE_UNSENT is raised. No other port gains a notice, nor any where the batch is indefinite or
unsent. -/
def Obligations.BatchOpenStartsANewBatch : Prop :=
  ∀ (s : State) (e : TakenEntry) (f product byte : Nat), Taken s e → e.val = .batchOpen f product byte →
    let x := s.lin.filler f
    let refused := fun (r : Status) => ∃ t, exec .batchOpenEntry s = .next t ∧
      OpResult s t e.tag s.lin s.hold [.batchOpenRefused r f product byte] []
    (s.lin.fillerVessel f = none ∨ catOfByte byte = none → refused .badArgument) ∧
    (∀ v declared, s.lin.fillerVessel f = some v → catOfByte byte = some declared → f < 8 →
      (x.state = .cleaning → refused .busy) ∧
      (x.state ≠ .cleaning → (x.state = .batchOpen → x.ring ≠ []) →
        let w := s.lin.vessel v
        let port := s.port w.coderPort
        let closed := if x.state = .batchOpen
          then modifyLast (fun b => b.closedAs s.mgmt.clock .superseded) x.ring else x.ring
        let kept := if x.ring.length < 8 then closed else closed.drop 1
        let out := x.seq = 100000
        let unsent := ¬ out ∧ (port.linkUp = false ∨ 8 ≤ port.inj.length + port.reservations)
        ∃ t l h b recs, exec .batchOpenEntry s = .next t ∧
          OpResult s t e.tag l h
            ((if x.state = .batchOpen then (closed.getLast?.map (Payload.batchClosed · none)).toList
              else []) ++
             .batchOpened b (if x.ring.length < 8 then none else closed.head?.map Batch.serial) ::
             recs) [] ∧
          b = { serial := b.serial, code := b.code, filler := f, number := w.fillerNumber,
                product := product, declared := declared, openTime := s.mgmt.clock,
                cause := if e.command = true then .command else .telegram,
                indefinite := decide out, unsent := decide unsent,
                firstSerial := if x.seen = true then some ((x.lastCarton + 1) % 2 ^ 32) else none,
                list := [], cat := none, uncertain := false, mismatch := false, suspect := false,
                produced := 0, dispatched := 0, closeTime := none, reason := .stillOpen } ∧
          ((∀ g, g < 8 → ∀ y ∈ (s.lin.filler g).ring, y.serial ≠ s.lin.batchNext) →
            b.serial = s.lin.batchNext) ∧
          ((∀ g, g < 8 → (s.lin.filler g).ring.length ≤ 8) → 1 ≤ s.lin.batchNext →
            s.lin.batchNext ≤ 268435455 →
            FirstFreeSerial (fun n => ∃ g, g < 8 ∧ ∃ y ∈
              (if g = f then kept else (s.lin.filler g).ring), y.serial = n)
              s.lin.batchNext b.serial) ∧
          (out → b.code = 999999999999999999) ∧
          (¬ out → b.code % 97 = 1 ∧ b.code / 100 = s.mgmt.plant * 10 ^ 12 +
            w.fillerNumber * 10 ^ 10 +
            (if s.mgmt.clockSet = true then s.mgmt.clock.day else 0) * 10 ^ 5 + x.seq) ∧
          l.filler f = { x with
            state := .batchOpen, ring := kept ++ [b],
            seq := if out then x.seq else x.seq + 1,
            timer := if w.idleTimeout = 0 then none
                     else some (s.mgmt.elapsed + w.idleTimeout * 100) } ∧
          (∀ g, g ≠ f → l.filler g = s.lin.filler g) ∧ l.batchNext = nextSerial b.serial ∧
          (let k := s.lin.releaseAll (if x.ring.length < 8 then []
             else (closed.head?.map (fun o => keysOf o.list)).getD [])
           l = { s.lin with fillers := l.fillers, batchNext := l.batchNext, colls := k.colls,
                            blends := k.blends }) ∧
          (out → h = s.raisedHold (some f) (.codeExhausted f b.serial) ∧
            recs = s.raisedRecs (some f) (.codeExhausted f b.serial)) ∧
          (unsent → h = s.raisedHold (some f) (.codeUnsent f b.serial w.coderPort) ∧
            recs = s.raisedRecs (some f) (.codeUnsent f b.serial w.coderPort)) ∧
          (¬ out → ¬ unsent → h = s.hold ∧ recs = []) ∧
          t.port w.coderPort = (if out ∨ unsent then port
            else { port with inj := port.inj ++ [.notice (s.noticeFor w b)] }) ∧
          t.port w.coderPort.other = s.port w.coderPort.other))

/-- BATCH_CLOSE closes the open batch of its FILLER with reason TELEGRAM, is refused BAD_ARGUMENT
without a FILLER of the index and BUSY without an open batch. IDLE_CLOSE closes it with reason IDLE if
the batch is the one named and no flow came after the expiry; else it changes nothing. -/
def Obligations.BatchesCloseOnCommandAndWhenIdle : Prop :=
  ∀ (s : State) (e : TakenEntry) (f : Nat), Taken s e →
    let x := s.lin.filler f
    let ended := fun (l : Lineage) (ps : List Payload) => ∃ t, exec e.val.row s = .next t ∧
      OpResult s t e.tag l s.hold ps []
    let closes := fun (reason : CloseReason) (expiry : Option TimeStamp) => ∀ older b,
      x.ring = older ++ [b] → ended (s.lin.setFiller f
        { x with state := .idle, timer := none, ring := older ++ [b.closedAs s.mgmt.clock reason] })
        [.batchClosed (b.closedAs s.mgmt.clock reason) expiry]
    (e.val = .batchClose f →
      (s.lin.fillerVessel f = none → ended s.lin [.batchCloseRefused .badArgument f]) ∧
      (s.lin.fillerVessel f ≠ none → x.state ≠ .batchOpen →
        ended s.lin [.batchCloseRefused .busy f]) ∧
      (s.lin.fillerVessel f ≠ none → x.state = .batchOpen → closes .telegram none)) ∧
    (∀ serial expiry, e.val = .idleClose f serial expiry →
      let due := ∃ b, x.openBatch = some b ∧ b.serial = serial ∧ x.lastFlow.le expiry = true
      (¬ due → ended s.lin []) ∧ (due → closes .idle (some expiry)))

/-- A CARTON entry sets the filler's last serial, seen. The first serial seen gives the open batch its
first serial if it has none; a later one adds the forward step, modulo 2^32, to what the open batch has
produced, which stays at its top; a backward step adds nothing. Without a FILLER of the index nothing
changes. -/
def Obligations.CartonsCountForwardSteps : Prop :=
  ∀ (s : State) (e : TakenEntry) (f n : Nat), Taken s e → e.val = .carton f n →
    let x := s.lin.filler f
    let ended := fun (l : Lineage) => ∃ t, exec .cartonEntry s = .next t ∧
      OpResult s t e.tag l s.hold [] []
    let read := { x with lastCarton := n, seen := true }
    let d := (n + 2 ^ 32 - x.lastCarton) % 2 ^ 32
    (s.lin.fillerVessel f = none → ended s.lin) ∧
    (s.lin.fillerVessel f ≠ none →
      (x.state ≠ .batchOpen → ended (s.lin.setFiller f read)) ∧
      (x.state = .batchOpen → ∀ older b, x.ring = older ++ [b] →
        let with_ := fun (c : Batch) => ended (s.lin.setFiller f { read with ring := older ++ [c] })
        (x.seen = false → b.firstSerial = none →
          with_ { b with firstSerial := some ((n + 1) % 2 ^ 32) }) ∧
        (x.seen = false → b.firstSerial ≠ none → with_ b) ∧
        (x.seen = true → d < 2 ^ 31 →
          with_ { b with produced := min (b.produced + d) 4294967295 }) ∧
        (x.seen = true → 2 ^ 31 ≤ d → with_ b)))

/-- A DISPATCH of a code that is no packed decimal number, of the indefinite code, or of a code that no
batch of any ring carries, and no other, is recorded unresolved and raises DISPATCH_UNRESOLVED. Any other
code resolves to the first batch that carries it, through fillers 0 to 7 and each ring from newest to
oldest. A code found adds its count to the batch's
dispatched cartons and is recorded; then DISPATCH_EXCESS is raised where they exceed the produced, and
DISPATCH_SUSPECT where the batch is suspect. -/
def Obligations.DispatchCountsAgainstTheBatch : Prop :=
  ∀ (s : State) (e : TakenEntry) (code : List Byte) (n note : Nat), Taken s e →
    e.val = .dispatch code n note →
    let decimal := ∀ b ∈ code, b.toNat / 16 ≤ 9 ∧ b.toNat % 16 ≤ 9
    let value := code.foldl (fun x b => x * 100 + b.toNat / 16 * 10 + b.toNat % 16) 0
    let carries := fun (b : Batch) => b.code = value
    (s.lin.resolveCode code = none ↔ ¬ decimal ∨ value = 999999999999999999 ∨
      ∀ f, f < 8 → ∀ b ∈ (s.lin.filler f).ring, ¬ carries b) ∧
    (∀ f b, s.lin.resolveCode code = some (f, b) ↔
      decimal ∧ value ≠ 999999999999999999 ∧ f < 8 ∧
      (∀ g, g < f → ∀ y ∈ (s.lin.filler g).ring, ¬ carries y) ∧
      ∃ older newer, (s.lin.filler f).ring = older ++ b :: newer ∧ carries b ∧
        ∀ y ∈ newer, ¬ carries y) ∧
    (s.lin.resolveCode code = none → ∃ t, exec .dispatchEntry s = .next t ∧
      OpResult s t e.tag s.lin (s.raisedHold none (.dispatchUnresolved code note))
        (.dispatchUnresolved code n note :: s.raisedRecs none (.dispatchUnresolved code note)) []) ∧
    (∀ f b, s.lin.resolveCode code = some (f, b) →
      let sum := min (b.dispatched + n) 4294967295
      let c1 := CondVals.dispatchExcess b.serial b.produced sum
      let c2 := CondVals.dispatchSuspect b.serial note
      let above := b.produced < sum
      let u := s.setHold (if above then s.raisedHold none c1 else s.hold)
      ∃ t, exec .dispatchEntry s = .next t ∧
        OpResult s t e.tag
          (s.lin.setFiller f { s.lin.filler f with
            ring := (s.lin.filler f).ring.map (fun y =>
              if y.serial = b.serial then { y with dispatched := sum } else y) })
          (if b.suspect = true then u.raisedHold none c2 else u.hold)
          (.dispatched code n note b.serial f b.produced sum ::
            ((if above then s.raisedRecs none c1 else []) ++
             (if b.suspect = true then u.raisedRecs none c2 else []))) [])

/-! ## Suspect marking and the release of holds -/

/-- The six suspect commands are refused, with a record of the result and nothing changed: a key that is
no C or B key or of a serial out of range, or a farm id out of range, as BAD_ARGUMENT; a key that is not
resident, a sample, or for a release a farm that no record carries and no list holds as NOT_RESIDENT; a new
farm on a list of 16 as LIST_FULL. Every other one is accepted: it marks, or for a release clears, exactly
the collections it names, keeps the farm list, and sweeps to the fixpoint: a blend is flagged exactly when
it was (a release keeps only direct marks) or when a member is suspect. Every batch, STORE and BAY is then
flagged exactly when it holds a suspect key. The sweep starts from the marks, a release from the direct
marks alone; each pass visits the blends in table order and flags one with a suspect member, as the flags
then stand; the passes recorded are those up to and with the first that changes nothing. The SUSPECT or
RELEASE record counts what changed, and one
BATCH_SUSPECT or BATCH_CLEAR record follows for each batch whose flag changed, fillers 0 to 7, each ring
from oldest to newest. -/
def Obligations.SuspectCommandsMarkAndSweep : Prop :=
  ∀ (s : State) (e : TakenEntry) (release : Bool) (arg : MarkArg), Taken s e →
    e.val.markOf = some (release, arg) →
    let keyOk := fun (k : RawKey) => (k.kind = 1 ∨ k.kind = 2) ∧ 1 ≤ k.serial ∧ k.serial ≤ 268435455
    let found := fun (k : RawKey) => (k.kind = 1 ∧ ∃ c ∈ s.lin.colls, c.2.serial = k.serial) ∨
      (k.kind = 2 ∧ ∃ b ∈ s.lin.blends, b.2.serial = k.serial)
    let sampled := fun (r : CollRec) n => ∃ i, r.info = some i ∧ i.sample = some n
    let farmed := fun (r : CollRec) n => ∃ i, r.info = some i ∧ i.farm = n
    let refused := fun (r : Status) => ∃ t, exec e.val.row s = .next t ∧
      OpResult s t e.tag s.lin s.hold [.sweep release { arg := arg, result := r }] []
    let accepted := match arg with
      | .key k => keyOk k ∧ found k
      | .sample n => ∃ c ∈ s.lin.colls, sampled c.2 n
      | .farm n => n ≤ 16777215 ∧ (n ∈ s.lin.farms ∨ (release = false ∧ s.lin.farms.length < 16) ∨
          (release = true ∧ ∃ c ∈ s.lin.colls, farmed c.2 n))
    (∀ k, arg = .key k → ¬ keyOk k → refused .badArgument) ∧
    (∀ k, arg = .key k → keyOk k → ¬ found k → refused .notResident) ∧
    (∀ n, arg = .sample n → (∀ c ∈ s.lin.colls, ¬ sampled c.2 n) → refused .notResident) ∧
    (∀ n, arg = .farm n → 16777215 < n → refused .badArgument) ∧
    (∀ n, arg = .farm n → n ≤ 16777215 → n ∉ s.lin.farms →
      (release = false → 16 ≤ s.lin.farms.length → refused .listFull) ∧
      (release = true → (∀ c ∈ s.lin.colls, ¬ farmed c.2 n) → refused .notResident)) ∧
    ((s.lin.blends.map (fun b => b.2.serial)).Nodup → accepted →
      ∃ t l passes, exec e.val.row s = .next t ∧
        let names := fun (r : CollRec) => match arg with
          | .key k => k == ⟨1, r.serial⟩
          | .sample n => r.info.any (fun i => i.sample == some n)
          | .farm n => r.info.any (fun i => i.farm == n)
        let named := fun (b : BlendRec) => arg == .key ⟨2, b.serial⟩
        let direct := fun (b : BlendRec) => if named b then !release else b.direct
        let flag := fun (b : BlendRec) =>
          (if release then direct b else b.derived || (named b && !b.direct)) ||
            l.listSuspect (keysOf b.members)
        let flipped := (List.range 8).flatMap (fun f => (s.lin.filler f).ring.filterMap (fun b =>
          if b.suspect = l.listSuspect (keysOf b.list) then none
          else some { b with suspect := l.listSuspect (keysOf b.list) }))
        OpResult s t e.tag l s.hold
          (.sweep release
            { arg := arg, result := .done
              marks := (s.lin.colls.filter (fun c => names c.2 && c.2.mark == release)).length
              directChanged := s.lin.blends.any (fun b => named b.2 && b.2.direct == release)
              blendFlags := (s.lin.blends.filter (fun b => b.2.derived != flag b.2)).length
              passes := passes
              vessels := ((List.range 64).filter (fun v =>
                s.lin.suspectOf (s.lin.vessel v) != l.suspectOf (l.vessel v))).length
              batches := flipped.length, farms := l.farms.length } ::
            flipped.map (fun b => .batchFlag b.suspect b (b.reason == .stillOpen))) [] ∧
        1 ≤ passes ∧ passes ≤ s.lin.blends.length + 1 ∧
        (let start : Lineage := { s.lin with
           colls := l.colls
           blends := s.lin.blends.map (fun b => (b.1, { b.2 with
             direct := direct b.2
             derived := if release then direct b.2
                        else b.2.derived || (named b.2 && !b.2.direct) })) }
         let visit := fun (x : Lineage) (i : Nat) => { x with
           blends := x.blends.modify i (fun b =>
             (b.1, { b.2 with derived := b.2.derived || x.listSuspect (keysOf b.2.members) })) }
         let after := fun (k : Nat) =>
           (List.range k).foldl (fun x _ => (List.range x.blends.length).foldl visit x) start
         after passes = after (passes - 1) ∧
         (∀ k, k + 1 < passes → after (k + 1) ≠ after k) ∧ l.blends = (after passes).blends) ∧
        l.colls = s.lin.colls.map (fun c =>
          (c.1, { c.2 with mark := if names c.2 then !release else c.2.mark })) ∧
        l.blends = s.lin.blends.map (fun b =>
          (b.1, { b.2 with direct := direct b.2, derived := flag b.2 })) ∧
        l.farms = (match release, arg with
          | false, .farm n => if s.lin.farms.contains n then s.lin.farms else s.lin.farms ++ [n]
          | true, .farm n => s.lin.farms.filter (· != n)
          | _, _ => s.lin.farms) ∧
        (∀ f, f < 8 → l.filler f = { s.lin.filler f with
          ring := (s.lin.filler f).ring.map (fun b =>
            { b with suspect := l.listSuspect (keysOf b.list) }) }) ∧
        (∀ v, v < 64 → l.vessel v = { s.lin.vessel v with
          suspect := match (s.lin.vessel v).kind with
            | .store => l.listSuspect (keysOf (s.lin.vessel v).list)
            | .bay => l.ringSuspect (s.lin.ring (s.lin.vessel v).bayIndex)
            | _ => (s.lin.vessel v).suspect }) ∧
        l = { s.lin with colls := l.colls, blends := l.blends, farms := l.farms,
                         fillers := l.fillers, vessels := l.vessels })

/-- HOLD_RELEASE of a filler, of all fillers or of the dispatch hold empties their latch sets and no
other, and ends in one HOLD record of action RELEASE for each hold named and one of action EVALUATE for
every other hold that changed. Any other argument is recorded as BAD_ARGUMENT and changes no latch. -/
def Obligations.HoldReleaseEmptiesLatches : Prop :=
  ∀ (s : State) (e : TakenEntry) (a : Nat), Taken s e → e.val = .holdRelease a →
    let named := fun i => (a = i ∧ i < 8) ∨ (a = 0xFE ∧ i < 8) ∨ (a = 0xFD ∧ i = 8)
    (a ≤ 7 ∨ a = 0xFE ∨ a = 0xFD → ∃ t h, exec .holdReleaseEntry s = .next t ∧
      OpResult s t e.tag s.lin h [] [] ((List.range 9).filter (fun i => decide (named i))) ∧
      h = { s.hold with latches := h.latches } ∧
      (∀ i, i < 9 → h.latch i = if named i then 0 else s.hold.latch i) ∧
      t.jrn = (s.jrn.writeAll s.mgmt.clock e.tag
        (((List.range 9).filter (fun i => decide (named i ∨ s.hold.view i ≠ t.hold.view i))).map
          (fun i => .hold
            { hold := if i < 8 then i else 0xFD
              action := if named i then .release else .evaluate
              result := .done, before := s.hold.view i, after := t.hold.view i
              batch := if i < 8 then (s.lin.filler i).openBatch.map Batch.serial
                       else none }))).publish) ∧
    (7 < a → a ≠ 0xFE → a ≠ 0xFD → ∃ t, exec .holdReleaseEntry s = .next t ∧
      OpResult s t e.tag s.lin s.hold [.hold
        { hold := a, action := .release, result := .badArgument,
          before := { asserted := false, latch := 0, causes := {} },
          after := { asserted := false, latch := 0, causes := {} }, batch := none }] [])
end

