-- ==== Sys2Proof/Laws/State.lean ====
section
/-! SUPPORT. Reading a field of a state after one block of it has been set: one lemma for each
field and each updater, true by definition. -/

namespace Sys2Proof.Machine

open Sys2Proof

/-! ## setLin -/

section setLin

variable (s : State) (l : Lineage)

@[simp] theorem State.setLin_resetAsserted : (s.setLin l).resetAsserted = s.resetAsserted := rfl
@[simp] theorem State.setLin_portA : (s.setLin l).portA = s.portA := rfl
@[simp] theorem State.setLin_portB : (s.setLin l).portB = s.portB := rfl
@[simp] theorem State.setLin_dec : (s.setLin l).dec = s.dec := rfl
@[simp] theorem State.setLin_evq : (s.setLin l).evq = s.evq := rfl
@[simp] theorem State.setLin_inFlight : (s.setLin l).inFlight = s.inFlight := rfl
@[simp] theorem State.setLin_waiting : (s.setLin l).waiting = s.waiting := rfl
@[simp] theorem State.setLin_lin : (s.setLin l).lin = l := rfl
@[simp] theorem State.setLin_hold : (s.setLin l).hold = s.hold := rfl
@[simp] theorem State.setLin_jrn : (s.setLin l).jrn = s.jrn := rfl
@[simp] theorem State.setLin_mgmt : (s.setLin l).mgmt = s.mgmt := rfl
@[simp] theorem State.setLin_pending : (s.setLin l).pending = s.pending := rfl

end setLin

/-! ## setHold -/

section setHold

variable (s : State) (h : HoldUnit)

@[simp] theorem State.setHold_resetAsserted : (s.setHold h).resetAsserted = s.resetAsserted := rfl
@[simp] theorem State.setHold_portA : (s.setHold h).portA = s.portA := rfl
@[simp] theorem State.setHold_portB : (s.setHold h).portB = s.portB := rfl
@[simp] theorem State.setHold_dec : (s.setHold h).dec = s.dec := rfl
@[simp] theorem State.setHold_evq : (s.setHold h).evq = s.evq := rfl
@[simp] theorem State.setHold_inFlight : (s.setHold h).inFlight = s.inFlight := rfl
@[simp] theorem State.setHold_waiting : (s.setHold h).waiting = s.waiting := rfl
@[simp] theorem State.setHold_lin : (s.setHold h).lin = s.lin := rfl
@[simp] theorem State.setHold_hold : (s.setHold h).hold = h := rfl
@[simp] theorem State.setHold_jrn : (s.setHold h).jrn = s.jrn := rfl
@[simp] theorem State.setHold_mgmt : (s.setHold h).mgmt = s.mgmt := rfl
@[simp] theorem State.setHold_pending : (s.setHold h).pending = s.pending := rfl

end setHold

/-! ## setJrn -/

section setJrn

variable (s : State) (j : Journal)

@[simp] theorem State.setJrn_resetAsserted : (s.setJrn j).resetAsserted = s.resetAsserted := rfl
@[simp] theorem State.setJrn_portA : (s.setJrn j).portA = s.portA := rfl
@[simp] theorem State.setJrn_portB : (s.setJrn j).portB = s.portB := rfl
@[simp] theorem State.setJrn_dec : (s.setJrn j).dec = s.dec := rfl
@[simp] theorem State.setJrn_evq : (s.setJrn j).evq = s.evq := rfl
@[simp] theorem State.setJrn_inFlight : (s.setJrn j).inFlight = s.inFlight := rfl
@[simp] theorem State.setJrn_waiting : (s.setJrn j).waiting = s.waiting := rfl
@[simp] theorem State.setJrn_lin : (s.setJrn j).lin = s.lin := rfl
@[simp] theorem State.setJrn_hold : (s.setJrn j).hold = s.hold := rfl
@[simp] theorem State.setJrn_jrn : (s.setJrn j).jrn = j := rfl
@[simp] theorem State.setJrn_mgmt : (s.setJrn j).mgmt = s.mgmt := rfl
@[simp] theorem State.setJrn_pending : (s.setJrn j).pending = s.pending := rfl

end setJrn

/-! ## setMgmt -/

section setMgmt

variable (s : State) (m : Mgmt)

@[simp] theorem State.setMgmt_resetAsserted : (s.setMgmt m).resetAsserted = s.resetAsserted := rfl
@[simp] theorem State.setMgmt_portA : (s.setMgmt m).portA = s.portA := rfl
@[simp] theorem State.setMgmt_portB : (s.setMgmt m).portB = s.portB := rfl
@[simp] theorem State.setMgmt_dec : (s.setMgmt m).dec = s.dec := rfl
@[simp] theorem State.setMgmt_evq : (s.setMgmt m).evq = s.evq := rfl
@[simp] theorem State.setMgmt_inFlight : (s.setMgmt m).inFlight = s.inFlight := rfl
@[simp] theorem State.setMgmt_waiting : (s.setMgmt m).waiting = s.waiting := rfl
@[simp] theorem State.setMgmt_lin : (s.setMgmt m).lin = s.lin := rfl
@[simp] theorem State.setMgmt_hold : (s.setMgmt m).hold = s.hold := rfl
@[simp] theorem State.setMgmt_jrn : (s.setMgmt m).jrn = s.jrn := rfl
@[simp] theorem State.setMgmt_mgmt : (s.setMgmt m).mgmt = m := rfl
@[simp] theorem State.setMgmt_pending : (s.setMgmt m).pending = s.pending := rfl

end setMgmt

/-! ## setDec -/

section setDec

variable (s : State) (d : Decoder)

@[simp] theorem State.setDec_resetAsserted : (s.setDec d).resetAsserted = s.resetAsserted := rfl
@[simp] theorem State.setDec_portA : (s.setDec d).portA = s.portA := rfl
@[simp] theorem State.setDec_portB : (s.setDec d).portB = s.portB := rfl
@[simp] theorem State.setDec_dec : (s.setDec d).dec = d := rfl
@[simp] theorem State.setDec_evq : (s.setDec d).evq = s.evq := rfl
@[simp] theorem State.setDec_inFlight : (s.setDec d).inFlight = s.inFlight := rfl
@[simp] theorem State.setDec_waiting : (s.setDec d).waiting = s.waiting := rfl
@[simp] theorem State.setDec_lin : (s.setDec d).lin = s.lin := rfl
@[simp] theorem State.setDec_hold : (s.setDec d).hold = s.hold := rfl
@[simp] theorem State.setDec_jrn : (s.setDec d).jrn = s.jrn := rfl
@[simp] theorem State.setDec_mgmt : (s.setDec d).mgmt = s.mgmt := rfl
@[simp] theorem State.setDec_pending : (s.setDec d).pending = s.pending := rfl

end setDec

/-! ## setEvq -/

section setEvq

variable (s : State) (q : List Entry)

@[simp] theorem State.setEvq_resetAsserted : (s.setEvq q).resetAsserted = s.resetAsserted := rfl
@[simp] theorem State.setEvq_portA : (s.setEvq q).portA = s.portA := rfl
@[simp] theorem State.setEvq_portB : (s.setEvq q).portB = s.portB := rfl
@[simp] theorem State.setEvq_dec : (s.setEvq q).dec = s.dec := rfl
@[simp] theorem State.setEvq_evq : (s.setEvq q).evq = q := rfl
@[simp] theorem State.setEvq_inFlight : (s.setEvq q).inFlight = s.inFlight := rfl
@[simp] theorem State.setEvq_waiting : (s.setEvq q).waiting = s.waiting := rfl
@[simp] theorem State.setEvq_lin : (s.setEvq q).lin = s.lin := rfl
@[simp] theorem State.setEvq_hold : (s.setEvq q).hold = s.hold := rfl
@[simp] theorem State.setEvq_jrn : (s.setEvq q).jrn = s.jrn := rfl
@[simp] theorem State.setEvq_mgmt : (s.setEvq q).mgmt = s.mgmt := rfl
@[simp] theorem State.setEvq_pending : (s.setEvq q).pending = s.pending := rfl

end setEvq

/-! ## setInFlight -/

section setInFlight

variable (s : State) (e : Option TakenEntry)

@[simp] theorem State.setInFlight_resetAsserted : (s.setInFlight e).resetAsserted = s.resetAsserted := rfl
@[simp] theorem State.setInFlight_portA : (s.setInFlight e).portA = s.portA := rfl
@[simp] theorem State.setInFlight_portB : (s.setInFlight e).portB = s.portB := rfl
@[simp] theorem State.setInFlight_dec : (s.setInFlight e).dec = s.dec := rfl
@[simp] theorem State.setInFlight_evq : (s.setInFlight e).evq = s.evq := rfl
@[simp] theorem State.setInFlight_inFlight : (s.setInFlight e).inFlight = e := rfl
@[simp] theorem State.setInFlight_waiting : (s.setInFlight e).waiting = s.waiting := rfl
@[simp] theorem State.setInFlight_lin : (s.setInFlight e).lin = s.lin := rfl
@[simp] theorem State.setInFlight_hold : (s.setInFlight e).hold = s.hold := rfl
@[simp] theorem State.setInFlight_jrn : (s.setInFlight e).jrn = s.jrn := rfl
@[simp] theorem State.setInFlight_mgmt : (s.setInFlight e).mgmt = s.mgmt := rfl
@[simp] theorem State.setInFlight_pending : (s.setInFlight e).pending = s.pending := rfl

end setInFlight

/-! ## setWaiting -/

section setWaiting

variable (s : State) (w : List Waiting)

@[simp] theorem State.setWaiting_resetAsserted : (s.setWaiting w).resetAsserted = s.resetAsserted := rfl
@[simp] theorem State.setWaiting_portA : (s.setWaiting w).portA = s.portA := rfl
@[simp] theorem State.setWaiting_portB : (s.setWaiting w).portB = s.portB := rfl
@[simp] theorem State.setWaiting_dec : (s.setWaiting w).dec = s.dec := rfl
@[simp] theorem State.setWaiting_evq : (s.setWaiting w).evq = s.evq := rfl
@[simp] theorem State.setWaiting_inFlight : (s.setWaiting w).inFlight = s.inFlight := rfl
@[simp] theorem State.setWaiting_waiting : (s.setWaiting w).waiting = w := rfl
@[simp] theorem State.setWaiting_lin : (s.setWaiting w).lin = s.lin := rfl
@[simp] theorem State.setWaiting_hold : (s.setWaiting w).hold = s.hold := rfl
@[simp] theorem State.setWaiting_jrn : (s.setWaiting w).jrn = s.jrn := rfl
@[simp] theorem State.setWaiting_mgmt : (s.setWaiting w).mgmt = s.mgmt := rfl
@[simp] theorem State.setWaiting_pending : (s.setWaiting w).pending = s.pending := rfl

end setWaiting

/-! ## Ports -/

section setPort

variable (s : State) (p q : Port) (x : PortState)

@[simp] theorem State.setPort_resetAsserted : (s.setPort p x).resetAsserted = s.resetAsserted := by cases p <;> rfl
@[simp] theorem State.setPort_dec : (s.setPort p x).dec = s.dec := by cases p <;> rfl
@[simp] theorem State.setPort_evq : (s.setPort p x).evq = s.evq := by cases p <;> rfl
@[simp] theorem State.setPort_inFlight : (s.setPort p x).inFlight = s.inFlight := by cases p <;> rfl
@[simp] theorem State.setPort_waiting : (s.setPort p x).waiting = s.waiting := by cases p <;> rfl
@[simp] theorem State.setPort_lin : (s.setPort p x).lin = s.lin := by cases p <;> rfl
@[simp] theorem State.setPort_hold : (s.setPort p x).hold = s.hold := by cases p <;> rfl
@[simp] theorem State.setPort_jrn : (s.setPort p x).jrn = s.jrn := by cases p <;> rfl
@[simp] theorem State.setPort_mgmt : (s.setPort p x).mgmt = s.mgmt := by cases p <;> rfl
@[simp] theorem State.setPort_pending : (s.setPort p x).pending = s.pending := by cases p <;> rfl
@[simp] theorem State.port_setPort_same : (s.setPort p x).port p = x := by cases p <;> rfl
@[simp] theorem State.port_setPort_other : (s.setPort p x).port p.other = s.port p.other := by
  cases p <;> rfl
theorem State.port_setPort : (s.setPort p x).port q = if p = q then x else s.port q := by
  cases p <;> cases q <;> rfl

end setPort

section readings

variable (s : State) (p : Port)

@[simp] theorem State.port_setLin (l : Lineage) : (s.setLin l).port p = s.port p := by cases p <;> rfl
@[simp] theorem State.port_setHold (h : HoldUnit) : (s.setHold h).port p = s.port p := by cases p <;> rfl
@[simp] theorem State.port_setJrn (j : Journal) : (s.setJrn j).port p = s.port p := by cases p <;> rfl
@[simp] theorem State.port_setMgmt (m : Mgmt) : (s.setMgmt m).port p = s.port p := by cases p <;> rfl
@[simp] theorem State.port_setDec (d : Decoder) : (s.setDec d).port p = s.port p := by cases p <;> rfl
@[simp] theorem State.port_setEvq (q : List Entry) : (s.setEvq q).port p = s.port p := by cases p <;> rfl
@[simp] theorem State.port_setInFlight (e : Option TakenEntry) : (s.setInFlight e).port p = s.port p := by cases p <;> rfl
@[simp] theorem State.port_setWaiting (w : List Waiting) : (s.setWaiting w).port p = s.port p := by cases p <;> rfl

theorem State.now_def : s.now = s.mgmt.clock := rfl

end readings

@[simp] theorem State.now_setLin (s : State) (l : Lineage) : (s.setLin l).now = s.now := rfl
@[simp] theorem State.now_setHold (s : State) (h : HoldUnit) : (s.setHold h).now = s.now := rfl
@[simp] theorem State.now_setJrn (s : State) (j : Journal) : (s.setJrn j).now = s.now := rfl
@[simp] theorem State.now_setDec (s : State) (d : Decoder) : (s.setDec d).now = s.now := rfl
@[simp] theorem State.now_setEvq (s : State) (q : List Entry) : (s.setEvq q).now = s.now := rfl
@[simp] theorem State.now_setInFlight (s : State) (e : Option TakenEntry) : (s.setInFlight e).now = s.now := rfl
@[simp] theorem State.now_setWaiting (s : State) (w : List Waiting) : (s.setWaiting w).now = s.now := rfl
@[simp] theorem State.now_setPort (s : State) (p : Port) (x : PortState) :
    (s.setPort p x).now = s.now := by cases p <;> rfl

/-! ## Lineage -/

section lineage

variable (l : Lineage) (i : Nat)

@[simp] theorem Lineage.setVessel_vessels (x : Vessel) : (l.setVessel i x).vessels = vset l.vessels i x := rfl
@[simp] theorem Lineage.setVessel_catTab (x : Vessel) : (l.setVessel i x).catTab = l.catTab := rfl
@[simp] theorem Lineage.setVessel_meters (x : Vessel) : (l.setVessel i x).meters = l.meters := rfl
@[simp] theorem Lineage.setVessel_colls (x : Vessel) : (l.setVessel i x).colls = l.colls := rfl
@[simp] theorem Lineage.setVessel_blends (x : Vessel) : (l.setVessel i x).blends = l.blends := rfl
@[simp] theorem Lineage.setVessel_collNext (x : Vessel) : (l.setVessel i x).collNext = l.collNext := rfl
@[simp] theorem Lineage.setVessel_blendNext (x : Vessel) : (l.setVessel i x).blendNext = l.blendNext := rfl
@[simp] theorem Lineage.setVessel_rings (x : Vessel) : (l.setVessel i x).rings = l.rings := rfl
@[simp] theorem Lineage.setVessel_clusters (x : Vessel) : (l.setVessel i x).clusters = l.clusters := rfl
@[simp] theorem Lineage.setVessel_bankA (x : Vessel) : (l.setVessel i x).bankA = l.bankA := rfl
@[simp] theorem Lineage.setVessel_bankB (x : Vessel) : (l.setVessel i x).bankB = l.bankB := rfl
@[simp] theorem Lineage.setVessel_active (x : Vessel) : (l.setVessel i x).active = l.active := rfl
@[simp] theorem Lineage.setVessel_fillers (x : Vessel) : (l.setVessel i x).fillers = l.fillers := rfl
@[simp] theorem Lineage.setVessel_batchNext (x : Vessel) : (l.setVessel i x).batchNext = l.batchNext := rfl
@[simp] theorem Lineage.setVessel_farms (x : Vessel) : (l.setVessel i x).farms = l.farms := rfl
@[simp] theorem Lineage.setFiller_vessels (x : Filler) : (l.setFiller i x).vessels = l.vessels := rfl
@[simp] theorem Lineage.setFiller_catTab (x : Filler) : (l.setFiller i x).catTab = l.catTab := rfl
@[simp] theorem Lineage.setFiller_meters (x : Filler) : (l.setFiller i x).meters = l.meters := rfl
@[simp] theorem Lineage.setFiller_colls (x : Filler) : (l.setFiller i x).colls = l.colls := rfl
@[simp] theorem Lineage.setFiller_blends (x : Filler) : (l.setFiller i x).blends = l.blends := rfl
@[simp] theorem Lineage.setFiller_collNext (x : Filler) : (l.setFiller i x).collNext = l.collNext := rfl
@[simp] theorem Lineage.setFiller_blendNext (x : Filler) : (l.setFiller i x).blendNext = l.blendNext := rfl
@[simp] theorem Lineage.setFiller_rings (x : Filler) : (l.setFiller i x).rings = l.rings := rfl
@[simp] theorem Lineage.setFiller_clusters (x : Filler) : (l.setFiller i x).clusters = l.clusters := rfl
@[simp] theorem Lineage.setFiller_bankA (x : Filler) : (l.setFiller i x).bankA = l.bankA := rfl
@[simp] theorem Lineage.setFiller_bankB (x : Filler) : (l.setFiller i x).bankB = l.bankB := rfl
@[simp] theorem Lineage.setFiller_active (x : Filler) : (l.setFiller i x).active = l.active := rfl
@[simp] theorem Lineage.setFiller_fillers (x : Filler) : (l.setFiller i x).fillers = vset l.fillers i x := rfl
@[simp] theorem Lineage.setFiller_batchNext (x : Filler) : (l.setFiller i x).batchNext = l.batchNext := rfl
@[simp] theorem Lineage.setFiller_farms (x : Filler) : (l.setFiller i x).farms = l.farms := rfl
@[simp] theorem Lineage.setRing_vessels (x : Ring) : (l.setRing i x).vessels = l.vessels := rfl
@[simp] theorem Lineage.setRing_catTab (x : Ring) : (l.setRing i x).catTab = l.catTab := rfl
@[simp] theorem Lineage.setRing_meters (x : Ring) : (l.setRing i x).meters = l.meters := rfl
@[simp] theorem Lineage.setRing_colls (x : Ring) : (l.setRing i x).colls = l.colls := rfl
@[simp] theorem Lineage.setRing_blends (x : Ring) : (l.setRing i x).blends = l.blends := rfl
@[simp] theorem Lineage.setRing_collNext (x : Ring) : (l.setRing i x).collNext = l.collNext := rfl
@[simp] theorem Lineage.setRing_blendNext (x : Ring) : (l.setRing i x).blendNext = l.blendNext := rfl
@[simp] theorem Lineage.setRing_rings (x : Ring) : (l.setRing i x).rings = vset l.rings i x := rfl
@[simp] theorem Lineage.setRing_clusters (x : Ring) : (l.setRing i x).clusters = l.clusters := rfl
@[simp] theorem Lineage.setRing_bankA (x : Ring) : (l.setRing i x).bankA = l.bankA := rfl
@[simp] theorem Lineage.setRing_bankB (x : Ring) : (l.setRing i x).bankB = l.bankB := rfl
@[simp] theorem Lineage.setRing_active (x : Ring) : (l.setRing i x).active = l.active := rfl
@[simp] theorem Lineage.setRing_fillers (x : Ring) : (l.setRing i x).fillers = l.fillers := rfl
@[simp] theorem Lineage.setRing_batchNext (x : Ring) : (l.setRing i x).batchNext = l.batchNext := rfl
@[simp] theorem Lineage.setRing_farms (x : Ring) : (l.setRing i x).farms = l.farms := rfl
@[simp] theorem Lineage.setMeter_vessels (x : Meter) : (l.setMeter i x).vessels = l.vessels := rfl
@[simp] theorem Lineage.setMeter_catTab (x : Meter) : (l.setMeter i x).catTab = l.catTab := rfl
@[simp] theorem Lineage.setMeter_meters (x : Meter) : (l.setMeter i x).meters = vset l.meters i x := rfl
@[simp] theorem Lineage.setMeter_colls (x : Meter) : (l.setMeter i x).colls = l.colls := rfl
@[simp] theorem Lineage.setMeter_blends (x : Meter) : (l.setMeter i x).blends = l.blends := rfl
@[simp] theorem Lineage.setMeter_collNext (x : Meter) : (l.setMeter i x).collNext = l.collNext := rfl
@[simp] theorem Lineage.setMeter_blendNext (x : Meter) : (l.setMeter i x).blendNext = l.blendNext := rfl
@[simp] theorem Lineage.setMeter_rings (x : Meter) : (l.setMeter i x).rings = l.rings := rfl
@[simp] theorem Lineage.setMeter_clusters (x : Meter) : (l.setMeter i x).clusters = l.clusters := rfl
@[simp] theorem Lineage.setMeter_bankA (x : Meter) : (l.setMeter i x).bankA = l.bankA := rfl
@[simp] theorem Lineage.setMeter_bankB (x : Meter) : (l.setMeter i x).bankB = l.bankB := rfl
@[simp] theorem Lineage.setMeter_active (x : Meter) : (l.setMeter i x).active = l.active := rfl
@[simp] theorem Lineage.setMeter_fillers (x : Meter) : (l.setMeter i x).fillers = l.fillers := rfl
@[simp] theorem Lineage.setMeter_batchNext (x : Meter) : (l.setMeter i x).batchNext = l.batchNext := rfl
@[simp] theorem Lineage.setMeter_farms (x : Meter) : (l.setMeter i x).farms = l.farms := rfl

end lineage

end Sys2Proof.Machine
end

