-- ==== Sys2Proof/Laws/Ops.lean ====
section
/-! SUPPORT. What the shared operations do, once each: tables, the journal, raising a condition, the
hold evaluation and the taking of an entry. -/

namespace Sys2Proof.Machine

open Sys2Proof

/-! ## Tables -/

section tables

variable {α : Type} {n : Nat} (v : Vector α n) (i j : Nat) (x d : α)

theorem vget_lt (h : i < n) : vget v i d = v[i] := by simp [vget, h]

theorem vget_vset : vget (vset v i x) j d = if i = j ∧ i < n then x else vget v j d := by
  unfold vget vset
  by_cases hj : j < n
  · by_cases hij : i = j
    · subst hij; simp [hj]
    · simp [hj, hij]
  · have : ¬ (i = j ∧ i < n) := fun h => hj (h.1 ▸ h.2)
    simp [hj, this]

theorem vget_vset_same (h : i < n) : vget (vset v i x) i d = x := by simp [vget_vset, h]

theorem vget_vset_ne (h : i ≠ j) : vget (vset v i x) j d = vget v j d := by simp [vget_vset, h]

theorem vget_replicate (h : i < n) : vget (Vector.replicate n x) i d = x := by simp [vget, h]

theorem vget_map {β : Type} (f : α → β) (e : β) (h : i < n) : vget (v.map f) i e = f (vget v i d) := by
  simp [vget, h]

theorem vget_mapIdx {β : Type} (f : Nat → α → β) (e : β) (h : i < n) :
    vget (v.mapIdx f) i e = f i (vget v i d) := by simp [vget, h]

theorem vec_ext (w : Vector α n) (h : ∀ i, i < n → vget v i d = vget w i d) : v = w := by
  apply Vector.ext
  intro i hi
  have := h i hi
  simpa [vget, hi] using this

end tables

/-! ## The journal -/

@[simp] theorem Journal.writeAll_nil (j : Journal) (t : TimeStamp) (k : Nat) : j.writeAll t k [] = j :=
  rfl

@[simp] theorem Journal.writeAll_cons (j : Journal) (t : TimeStamp) (k : Nat) (p : Payload)
    (ps : List Payload) : j.writeAll t k (p :: ps) = (j.write t k p).writeAll t k ps := rfl

theorem Journal.writeAll_append (j : Journal) (t : TimeStamp) (k : Nat) (ps qs : List Payload) :
    j.writeAll t k (ps ++ qs) = (j.writeAll t k ps).writeAll t k qs := by
  simp [Journal.writeAll, List.foldl_append]

/-- The payloads of a run of records stand in the journal, in order. -/
theorem Journal.writeAll_payloads (j : Journal) (t : TimeStamp) (k : Nat) (ps : List Payload) :
    (j.writeAll t k ps).records.map JournalRec.payload = j.records.map JournalRec.payload ++ ps := by
  induction ps generalizing j with
  | nil => simp
  | cons p ps ih => rw [Journal.writeAll_cons, ih]; simp [Journal.write]

/-- A journal tells which records were written to it. -/
theorem Journal.writeAll_injective {j : Journal} {t u : TimeStamp} {k n : Nat} {ps qs : List Payload}
    (h : j.writeAll t k ps = j.writeAll u n qs) : ps = qs :=
  List.append_cancel_left (by
    rw [← j.writeAll_payloads t k ps, h, j.writeAll_payloads u n qs])

theorem Journal.writeAll_oldest (j : Journal) (t : TimeStamp) (k : Nat) (ps : List Payload) :
    (j.writeAll t k ps).oldest = j.oldest := by
  induction ps generalizing j with
  | nil => rfl
  | cons p ps ih => rw [Journal.writeAll_cons, ih]; rfl

section write

variable (s : State) (tag : Nat) (p : Payload)

@[simp] theorem State.write_resetAsserted : (s.write tag p).resetAsserted = s.resetAsserted := rfl
@[simp] theorem State.write_portA : (s.write tag p).portA = s.portA := rfl
@[simp] theorem State.write_portB : (s.write tag p).portB = s.portB := rfl
@[simp] theorem State.write_dec : (s.write tag p).dec = s.dec := rfl
@[simp] theorem State.write_evq : (s.write tag p).evq = s.evq := rfl
@[simp] theorem State.write_inFlight : (s.write tag p).inFlight = s.inFlight := rfl
@[simp] theorem State.write_waiting : (s.write tag p).waiting = s.waiting := rfl
@[simp] theorem State.write_lin : (s.write tag p).lin = s.lin := rfl
@[simp] theorem State.write_hold : (s.write tag p).hold = s.hold := rfl
@[simp] theorem State.write_mgmt : (s.write tag p).mgmt = s.mgmt := rfl
@[simp] theorem State.write_pending : (s.write tag p).pending = s.pending := rfl
@[simp] theorem State.write_jrn : (s.write tag p).jrn = s.jrn.write s.now tag p := rfl
@[simp] theorem State.write_now : (s.write tag p).now = s.now := rfl
@[simp] theorem State.write_port (q : Port) : (s.write tag p).port q = s.port q := by cases q <;> rfl

end write

/-! ## Raising a condition -/

/-- A raise changes the counters, the latches and the journal, as R130 orders it. -/
theorem State.raise_eq (s : State) (tag : Nat) (filler : Option Nat) (c : CondVals) :
    s.raise tag filler c =
      { s with
        hold := s.hold.raised c.row
          (s.lin.latchTargets (vget s.hold.policy c.row {}).target filler)
        jrn := if (vget s.hold.policy c.row {}).report
          then s.jrn.write s.now tag (.condition (s.conditionRec filler c)) else s.jrn } := by
  unfold State.raise
  by_cases h : (vget s.hold.policy c.row {}).report = true
  · simp only [h, if_true]; rfl
  · simp only [h]; rfl

theorem HoldUnit.latchAll_keeps (h : HoldUnit) (row : Nat) (ts : List Nat) :
    ∃ ls, h.latchAll row ts = { h with latches := ls } := by
  induction ts generalizing h with
  | nil => exact ⟨h.latches, rfl⟩
  | cons t ts ih =>
    obtain ⟨ls, hls⟩ := ih { h with latches := vset h.latches t ((h.latch t).add row) }
    exact ⟨ls, by simpa [HoldUnit.latchAll] using hls⟩

/-- A raise changes only counters and latches of the unit. -/
theorem HoldUnit.raised_keeps (h : HoldUnit) (row : Nat) (ts : List Nat) :
    ∃ ls, h.raised row ts = { h with
      counters := vset h.counters row (tick32 (vget h.counters row 0)), latches := ls } := by
  obtain ⟨ls, hls⟩ := (h.count row).latchAll_keeps row ts
  exact ⟨ls, by simpa [HoldUnit.raised, HoldUnit.count] using hls⟩

section raise

variable (s : State) (tag : Nat) (filler : Option Nat) (c : CondVals)

@[simp] theorem State.raise_lin : (s.raise tag filler c).lin = s.lin := by rw [State.raise_eq]
@[simp] theorem State.raise_now : (s.raise tag filler c).now = s.now := by rw [State.raise_eq]; rfl
@[simp] theorem State.raise_mgmt : (s.raise tag filler c).mgmt = s.mgmt := by rw [State.raise_eq]
@[simp] theorem State.raise_evq : (s.raise tag filler c).evq = s.evq := by rw [State.raise_eq]
@[simp] theorem State.raise_port (q : Port) : (s.raise tag filler c).port q = s.port q := by
  rw [State.raise_eq]; cases q <;> rfl

end raise

/-! ## Issued serials (R50, R100) -/

/-- The k-th serial from a counter on. -/
theorem nextSerial_at (c k : Nat) :
    nextSerial ((c - 1 + k) % 268435455 + 1) = (c - 1 + (k + 1)) % 268435455 + 1 := by
  unfold nextSerial Config.serialMax
  split <;> omega

/-- The search from the k-th serial on ends at the first that is free, or has passed taken ones alone. -/
theorem issueSerial_search (taken : Nat → Bool) (c : Nat) (fuel k : Nat) :
    (∃ m, m < fuel ∧
      issueSerial taken fuel ((c - 1 + k) % 268435455 + 1) = (c - 1 + (k + m)) % 268435455 + 1 ∧
      taken ((c - 1 + (k + m)) % 268435455 + 1) = false ∧
      ∀ j, j < m → taken ((c - 1 + (k + j)) % 268435455 + 1) = true) ∨
    ∀ j, j < fuel → taken ((c - 1 + (k + j)) % 268435455 + 1) = true := by
  induction fuel generalizing k with
  | zero => exact .inr (fun j hj => absurd hj (Nat.not_lt_zero j))
  | succ fuel ih =>
    by_cases h : taken ((c - 1 + k) % 268435455 + 1) = true
    · have e : issueSerial taken (fuel + 1) ((c - 1 + k) % 268435455 + 1) =
          issueSerial taken fuel ((c - 1 + (k + 1)) % 268435455 + 1) := by
        rw [issueSerial, if_pos h, nextSerial_at]
      have push : ∀ n, (∀ j, j < n → taken ((c - 1 + (k + 1 + j)) % 268435455 + 1) = true) →
          ∀ j, j < n + 1 → taken ((c - 1 + (k + j)) % 268435455 + 1) = true := by
        intro n hn j hj
        cases j with
        | zero => exact h
        | succ j =>
          have := hn j (by omega)
          rwa [show k + 1 + j = k + (j + 1) by omega] at this
      rcases ih (k + 1) with ⟨m, h1, h2, h3, h4⟩ | h'
      · refine .inl ⟨m + 1, by omega, ?_, ?_, push m h4⟩
        · rw [e, h2, show k + 1 + m = k + (m + 1) by omega]
        · rwa [show k + 1 + m = k + (m + 1) by omega] at h3
      · exact .inr (push fuel h')
    · have h' : taken ((c - 1 + k) % 268435455 + 1) = false := by simpa using h
      exact .inl ⟨0, Nat.succ_pos fuel, by rw [issueSerial, if_neg h]; rfl, h',
        fun j hj => absurd hj (Nat.not_lt_zero j)⟩

/-- With fewer taken serials than there are serials, listed with one more as fuel, the search issues the
first free one. -/
theorem issueSerial_firstFree (taken : Nat → Bool) (l : List Nat) (c : Nat)
    (hl : ∀ n, taken n = true → n ∈ l) (hc : 1 ≤ c ∧ c ≤ 268435455) (hlen : l.length < 268435455) :
    FirstFreeSerial (fun n => taken n = true) c (issueSerial taken (l.length + 1) c) := by
  have h0 : (c - 1 + 0) % 268435455 + 1 = c := by omega
  have h := issueSerial_search taken c (l.length + 1) 0
  rw [h0] at h
  simp only [Nat.zero_add] at h
  rcases h with ⟨m, _, h2, h3, h4⟩ | h
  · exact ⟨m, h2, by rw [h2]; simp [h3], h4⟩
  · exfalso
    have hsub : (List.range (l.length + 1)).map (fun j => (c - 1 + j) % 268435455 + 1) ⊆ l := by
      intro x hx
      obtain ⟨j, hj, rfl⟩ := List.mem_map.mp hx
      exact hl _ (h j (List.mem_range.mp hj))
    have hnd : ((List.range (l.length + 1)).map (fun j => (c - 1 + j) % 268435455 + 1)).Nodup := by
      refine List.Nodup.map_on (fun i hi j hj hij => ?_) List.nodup_range
      have := List.mem_range.mp hi
      have := List.mem_range.mp hj
      omega
    have := (hnd.subperm hsub).length_le
    simp at this

/-! ## The hold evaluation (R137) -/

theorem State.holdView_setHold_shown (s : State) (i : Nat) (v : Vector HoldView 9) :
    (s.setHold { s.hold with shown := v }).holdView i = s.holdView i := rfl

theorem State.holdView_write (s : State) (i tag : Nat) (p : Payload) :
    (s.write tag p).holdView i = s.holdView i := rfl

/-- The HOLD record that the evaluation writes for a hold where it writes one. -/
def State.holdPayload (s : State) (a : HoldAction) (rel : List Nat) (i : Nat) : Payload :=
  .hold
    { hold := holdByte i
      action := if rel.contains i then HoldAction.release else a
      result := .done
      before := s.hold.view i
      after := s.holdView i
      batch := (s.holdBatch i).map Batch.serial }

/-- The evaluation writes a record for a hold: it was released, or its state changed. -/
def State.holdMoved (s : State) (rel : List Nat) (i : Nat) : Bool :=
  rel.contains i || s.hold.view i != s.holdView i

/-- The evaluation of one hold, in one equation. -/
theorem State.evaluateHold_eq (tag : Nat) (a : HoldAction) (rel : List Nat) (s : State) (i : Nat) :
    State.evaluateHold tag a rel s i =
      { s with
        hold := { s.hold with shown := vset s.hold.shown i (s.holdView i) }
        jrn := s.jrn.writeAll s.now tag (if s.holdMoved rel i then [s.holdPayload a rel i] else []) } := by
  by_cases h : s.holdMoved rel i = true
  · have h' := h
    unfold State.holdMoved at h'
    simp only [State.evaluateHold, h', if_true, h]
    rfl
  · have h' := h
    unfold State.holdMoved at h'
    simp only [State.evaluateHold, h', h]
    rfl

/-- What the evaluation of some holds leaves: their HOLD records, and their states shown. -/
theorem State.evaluate_fold (tag : Nat) (a : HoldAction) (rel : List Nat) (is : List Nat) (s : State)
    (hn : is.Nodup) :
    is.foldl (State.evaluateHold tag a rel) s =
      { s with
        hold := { s.hold with
          shown := is.foldl (fun v i => vset v i (s.holdView i)) s.hold.shown }
        jrn := s.jrn.writeAll s.now tag ((is.filter (s.holdMoved rel)).map (s.holdPayload a rel)) } := by
  induction is generalizing s with
  | nil => rfl
  | cons i is ih =>
    obtain ⟨hi, hn'⟩ := List.nodup_cons.mp hn
    rw [List.foldl_cons, ih _ hn', State.evaluateHold_eq]
    generalize hu : ({ s with
      hold := { s.hold with shown := vset s.hold.shown i (s.holdView i) }
      jrn := s.jrn.writeAll s.now tag (if s.holdMoved rel i then [s.holdPayload a rel i] else []) } :
        State) = u
    have hv : ∀ j, j ∈ is → u.hold.view j = s.hold.view j := by
      intro j hj
      subst hu
      have hne : i ≠ j := fun h => hi (h ▸ hj)
      simp [HoldUnit.view, vget_vset, hne]
    have hw : ∀ j, u.holdView j = s.holdView j := fun j => by subst hu; rfl
    have hf : is.filter (u.holdMoved rel) = is.filter (s.holdMoved rel) :=
      List.filter_congr (fun j hj => by simp [State.holdMoved, hv j hj, hw j])
    have hm : (is.filter (s.holdMoved rel)).map (u.holdPayload a rel) =
        (is.filter (s.holdMoved rel)).map (s.holdPayload a rel) :=
      List.map_congr_left (fun j hj => by
        have hb : u.holdBatch j = s.holdBatch j := by subst hu; rfl
        simp [State.holdPayload, hv j (List.mem_of_mem_filter hj), hw j, hb])
    rw [hf, hm]
    subst hu
    rw [List.filter_cons]
    split
    · rfl
    · rfl

/-- The evaluation writes the HOLD records of what moved and shows every hold's state; nothing else
changes. -/
theorem State.evaluate_spec (s : State) (tag : Nat) (a : HoldAction) (rel : List Nat) :
    s.evaluate tag a rel =
      { s with
        hold := { s.hold with
          shown := (List.range 9).foldl (fun v i => vset v i (s.holdView i)) s.hold.shown }
        jrn := s.jrn.writeAll s.now tag
          (((List.range 9).filter (s.holdMoved rel)).map (s.holdPayload a rel)) } :=
  State.evaluate_fold tag a rel (List.range 9) s List.nodup_range

/-- Every hold is shown as computed after the fold over all nine. -/
theorem vget_foldl_vset {α : Type} {n : Nat} (f : Nat → α) (d : α) (v : Vector α n) (k i : Nat)
    (hi : i < k) (hn : i < n) :
    vget ((List.range k).foldl (fun v i => vset v i (f i)) v) i d = f i := by
  induction k with
  | zero => omega
  | succ k ih =>
    rw [List.range_succ, List.foldl_append]
    simp only [List.foldl_cons, List.foldl_nil]
    rw [vget_vset]
    by_cases h : k = i
    · subst h; simp [hn]
    · simp only [h, false_and, if_false]; exact ih (by omega)

/-! ## Pending idle closes and the taking of an entry (R158, R159) -/

theorem SameButIdle.refl (l : Lineage) : SameButIdle l l := by
  refine ⟨fun f => (l.filler f).pendingIdle, ?_⟩
  have : l.fillers = l.fillers.mapIdx (fun f x => { x with pendingIdle := (l.filler f).pendingIdle }) := by
    apply vec_ext (d := {})
    intro i hi
    rw [vget_mapIdx (d := {}) (h := hi)]
    rfl
  rw [← this]

theorem SameButIdle.trans {l k m : Lineage} (h : SameButIdle l k) (g : SameButIdle k m) :
    SameButIdle l m := by
  obtain ⟨f, rfl⟩ := h
  obtain ⟨g, rfl⟩ := g
  refine ⟨g, ?_⟩
  congr 1
  apply vec_ext (d := {})
  intro i hi
  rw [vget_mapIdx (d := {}) (h := hi), vget_mapIdx (d := {}) (h := hi), vget_mapIdx (d := {}) (h := hi)]

theorem SameButIdle.setPending (l : Lineage) (f : Nat) (p : Option (Nat × TimeStamp)) :
    SameButIdle l (l.setFiller f { l.filler f with pendingIdle := p }) := by
  refine ⟨fun i => if f = i then p else (l.filler i).pendingIdle, ?_⟩
  unfold Lineage.setFiller
  congr 1
  apply vec_ext (d := {})
  intro i hi
  rw [vget_mapIdx (d := {}) (h := hi), vget_vset]
  by_cases h : f = i
  · subst h; simp [hi, Lineage.filler]
  · simp [h, Lineage.filler]

section sameButIdle

variable {l k : Lineage}

theorem SameButIdle.vessels (h : SameButIdle l k) : k.vessels = l.vessels := by obtain ⟨f, rfl⟩ := h; rfl
theorem SameButIdle.catTab (h : SameButIdle l k) : k.catTab = l.catTab := by obtain ⟨f, rfl⟩ := h; rfl
theorem SameButIdle.meters (h : SameButIdle l k) : k.meters = l.meters := by obtain ⟨f, rfl⟩ := h; rfl
theorem SameButIdle.clusters (h : SameButIdle l k) : k.clusters = l.clusters := by obtain ⟨f, rfl⟩ := h; rfl
theorem SameButIdle.bankA (h : SameButIdle l k) : k.bankA = l.bankA := by obtain ⟨f, rfl⟩ := h; rfl
theorem SameButIdle.bankB (h : SameButIdle l k) : k.bankB = l.bankB := by obtain ⟨f, rfl⟩ := h; rfl
theorem SameButIdle.active (h : SameButIdle l k) : k.active = l.active := by obtain ⟨f, rfl⟩ := h; rfl
theorem SameButIdle.filler (h : SameButIdle l k) (i : Nat) (hi : i < 8) :
    ∃ p, k.filler i = { l.filler i with pendingIdle := p } := by
  obtain ⟨f, rfl⟩ := h
  refine ⟨f i, ?_⟩
  unfold Lineage.filler
  rw [vget_mapIdx (d := {}) (h := hi)]
theorem SameButIdle.openBatch (h : SameButIdle l k) (i : Nat) (hi : i < 8) :
    (k.filler i).openBatch = (l.filler i).openBatch := by
  obtain ⟨p, hp⟩ := h.filler i hi
  rw [hp]; rfl

end sameButIdle

/-- What taking or settling may change: the queue, the entry in flight, pending idle closes. -/
structure SettleFrame (s t : State) : Prop where
  resetAsserted : t.resetAsserted = s.resetAsserted
  portA : t.portA = s.portA
  portB : t.portB = s.portB
  dec : t.dec = s.dec
  waiting : t.waiting = s.waiting
  lin : SameButIdle s.lin t.lin
  hold : t.hold = s.hold
  jrn : t.jrn = s.jrn
  mgmt : t.mgmt = s.mgmt
  pending : t.pending = s.pending

theorem SettleFrame.refl (s : State) : SettleFrame s s :=
  ⟨rfl, rfl, rfl, rfl, rfl, SameButIdle.refl _, rfl, rfl, rfl, rfl⟩

theorem SettleFrame.trans {s t u : State} (h : SettleFrame s t) (g : SettleFrame t u) :
    SettleFrame s u :=
  ⟨g.1.trans h.1, g.2.trans h.2, g.3.trans h.3, g.4.trans h.4, g.5.trans h.5, h.6.trans g.6,
   g.7.trans h.7, g.8.trans h.8, g.9.trans h.9, g.10.trans h.10⟩

theorem SettleFrame.port {s t : State} (h : SettleFrame s t) (p : Port) : t.port p = s.port p := by
  cases p
  · exact h.portA
  · exact h.portB

/-- With the queue, the entry in flight and the lineage state put back, the state is the one before. -/
theorem SettleFrame.undo {s t : State} (h : SettleFrame s t) :
    { t with evq := s.evq, inFlight := s.inFlight, lin := s.lin } = s := by
  obtain ⟨⟩ := s
  obtain ⟨⟩ := t
  obtain ⟨h1, h2, h3, h4, h5, _, h6, h7, h8, h9⟩ := h
  simp only at h1 h2 h3 h4 h5 h6 h7 h8 h9
  subst h1 h2 h3 h4 h5 h6 h7 h8 h9
  rfl

theorem State.append_frame (s : State) (e : Entry) : SettleFrame s (s.append e).1 := by
  unfold State.append
  split
  · exact ⟨rfl, rfl, rfl, rfl, rfl, SameButIdle.refl _, rfl, rfl, rfl, rfl⟩
  · exact SettleFrame.refl s

theorem State.offerPending_frame (s : State) (f : Nat) : SettleFrame s (s.offerPending f) := by
  unfold State.offerPending
  split
  · exact SettleFrame.refl s
  · dsimp only
    split
    · refine (s.append_frame _).trans ⟨rfl, rfl, rfl, rfl, rfl, ?_, rfl, rfl, rfl, rfl⟩
      exact SameButIdle.setPending _ _ _
    · exact s.append_frame _

theorem State.offerPendings_frame (is : List Nat) (s : State) :
    SettleFrame s (is.foldl State.offerPending s) := by
  induction is generalizing s with
  | nil => exact SettleFrame.refl s
  | cons i is ih => exact (s.offerPending_frame i).trans (ih _)

theorem State.takeNext_frame (s : State) : SettleFrame s s.takeNext := by
  unfold State.takeNext
  split
  · exact SettleFrame.refl s
  · dsimp only
    have h : ∀ e r, SettleFrame s ((s.setEvq r).setInFlight (some e)) := fun e r =>
      ⟨rfl, rfl, rfl, rfl, rfl, SameButIdle.refl _, rfl, rfl, rfl, rfl⟩
    split
    · exact h _ _
    · exact (h _ _).trans (State.offerPendings_frame _ _)

/-- Settling changes the queue, the entry in flight and pending idle closes at most. -/
theorem State.settle_frame (s : State) : SettleFrame s s.settle := by
  unfold State.settle
  split
  · exact s.takeNext_frame
  · exact SettleFrame.refl s

/-- With an entry in flight nothing settles. -/
theorem State.settle_of_inFlight (s : State) (e : TakenEntry) (h : s.inFlight = some e) : s.settle = s := by
  simp [State.settle, State.mayTake, h]

/-- A hold's computed state is the same where latches, policy and open batches are. -/
theorem State.holdView_congr {s t : State} (hh : t.hold.latches = s.hold.latches)
    (h1 : t.hold.suspectOn = s.hold.suspectOn) (h2 : t.hold.uncertainOn = s.hold.uncertainOn)
    (h3 : t.hold.mismatchOn = s.hold.mismatchOn)
    (hb : ∀ i, i < 8 → (t.lin.filler i).openBatch = (s.lin.filler i).openBatch) (i : Nat) :
    t.holdView i = s.holdView i := by
  have hbatch : t.holdBatch i = s.holdBatch i := by
    unfold State.holdBatch
    split
    · exact hb i ‹_›
    · rfl
  have hc : t.hold.causesFor (s.holdBatch i) = s.hold.causesFor (s.holdBatch i) := by
    unfold HoldUnit.causesFor
    split
    · rfl
    · simp [h1, h2, h3]
  simp only [State.holdView, HoldUnit.latch, hh, hbatch, hc]

end Sys2Proof.Machine
end

