-- ==== Sys2Proof/Laws/Frames.lean ====
section
/-! SUPPORT. The frames of the engine's operations: what each leaves alone. A frame is proved once
for each shared operation and composed along the operations that call it. -/

namespace Sys2Proof.Machine

open Sys2Proof

/-! ## Ports -/

theorem PortState.notified.refl (x : PortState) : x.notified x :=
  ⟨[], by simp, fun h => absurd rfl h⟩

theorem PortState.notified.trans {x y z : PortState} (h : x.notified y) (g : y.notified z) :
    x.notified z := by
  obtain ⟨ns, rfl, hn⟩ := h
  obtain ⟨ms, rfl, hm⟩ := g
  refine ⟨ns ++ ms, by simp, fun hne => ?_⟩
  by_cases hms : ms = []
  · subst hms
    simpa using hn (by simpa using hne)
  · obtain ⟨h1, h2⟩ := hm hms
    exact ⟨h1, by simpa [Nat.add_assoc] using h2⟩

/-- An offer of a code notice appends it where a place is free, else changes nothing. -/
theorem State.offerNotice_ports (s : State) (q : Port) (n : Notice) (p : Port) :
    (s.port p).notified ((s.offerNotice q n).1.port p) := by
  unfold State.offerNotice
  dsimp only
  split
  · rename_i h
    simp only [PortState.room, Bool.and_eq_true, decide_eq_true_eq] at h
    rw [State.port_setPort]
    split
    · subst_vars
      refine ⟨[n], rfl, fun _ => ⟨h.1, ?_⟩⟩
      have := h.2
      simp only [List.length_singleton]
      omega
    · exact PortState.notified.refl _
  · exact PortState.notified.refl _

/-! ## The algebra of operation frames -/

section algebra

variable {tag : Nat} {s t u : State}

theorem OpFrame.refl (s : State) : OpFrame tag s s :=
  ⟨rfl, rfl, rfl, rfl, rfl, rfl, rfl, rfl, rfl, rfl, rfl, rfl, rfl, rfl, rfl, rfl,
   ⟨[], rfl, fun _ h => absurd rfl h⟩, fun _ => PortState.notified.refl _⟩

theorem Announced.left {ps : List Payload} (h : Announced ps) (qs : List Payload) :
    Announced (ps ++ qs) := by
  obtain ⟨b, o, hm, hb⟩ := h
  exact ⟨b, o, List.mem_append_left _ hm, hb⟩

theorem Announced.right {qs : List Payload} (h : Announced qs) (ps : List Payload) :
    Announced (ps ++ qs) := by
  obtain ⟨b, o, hm, hb⟩ := h
  exact ⟨b, o, List.mem_append_right _ hm, hb⟩

theorem OpFrame.now (h : OpFrame tag s t) : t.now = s.now := by
  simp [State.now_def, h.mgmt]

theorem OpFrame.trans (h : OpFrame tag s t) (g : OpFrame tag t u) : OpFrame tag s u := by
  refine ⟨g.1.trans h.1, g.2.trans h.2, g.3.trans h.3, g.4.trans h.4, g.5.trans h.5, g.6.trans h.6,
    g.7.trans h.7, g.8.trans h.8, g.9.trans h.9, g.10.trans h.10, g.11.trans h.11, g.12.trans h.12,
    g.13.trans h.13, g.14.trans h.14, g.15.trans h.15, g.16.trans h.16, ?_,
    fun p => (h.ports p).trans (g.ports p)⟩
  obtain ⟨ps, hp, hn⟩ := h.jrn
  obtain ⟨qs, hq, hm⟩ := g.jrn
  refine ⟨ps ++ qs, by rw [hq, hp, h.now, Journal.writeAll_append], fun p hne => ?_⟩
  by_cases hc : t.port p = s.port p
  · exact (hm p (by rw [hc]; exact hne)).right ps
  · exact (hn p hc).left qs

theorem OpFrame.setLin (l : Lineage) (h1 : l.catTab = s.lin.catTab) (h2 : l.bankA = s.lin.bankA)
    (h3 : l.bankB = s.lin.bankB) : OpFrame tag s (s.setLin l) :=
  ⟨rfl, rfl, rfl, rfl, rfl, rfl, rfl, rfl, rfl, rfl, rfl, rfl, rfl, h1, h2, h3,
   ⟨[], rfl, fun p h => absurd (by simp) h⟩, fun p => by simpa using PortState.notified.refl _⟩

theorem OpFrame.write (s : State) (p : Payload) : OpFrame tag s (s.write tag p) :=
  ⟨rfl, rfl, rfl, rfl, rfl, rfl, rfl, rfl, rfl, rfl, rfl, rfl, rfl, rfl, rfl, rfl,
   ⟨[p], rfl, fun q h => absurd (by simp) h⟩, fun p => by simpa using PortState.notified.refl _⟩

theorem OpFrame.raise (s : State) (f : Option Nat) (c : CondVals) :
    OpFrame tag s (s.raise tag f c) := by
  obtain ⟨ls, hls⟩ := s.hold.raised_keeps c.row
    (s.lin.latchTargets (vget s.hold.policy c.row {}).target f)
  rw [State.raise_eq, hls]
  refine ⟨rfl, rfl, rfl, rfl, rfl, rfl, rfl, rfl, rfl, rfl, rfl, rfl, rfl, rfl, rfl, rfl, ?_, ?_⟩
  · have hq : ∀ (q : Port) (j : Journal) (h : HoldUnit),
        ({ s with hold := h, jrn := j } : State).port q = s.port q := fun q _ _ => by cases q <;> rfl
    dsimp only
    split
    · exact ⟨[_], rfl, fun q h => absurd (hq q _ _) h⟩
    · exact ⟨[], rfl, fun q h => absurd (hq q _ _) h⟩
  · intro p
    cases p <;> exact PortState.notified.refl _

theorem OpFrame.countOnly (s : State) (row : Nat) : OpFrame tag s (s.countOnly row) :=
  ⟨rfl, rfl, rfl, rfl, rfl, rfl, rfl, rfl, rfl, rfl, rfl, rfl, rfl, rfl, rfl, rfl,
   ⟨[], rfl, fun p h => absurd (by simp [State.countOnly]) h⟩,
   fun p => by simpa [State.countOnly] using PortState.notified.refl _⟩

/-- A fold of steps that keep the frame keeps it. -/
theorem OpFrame.foldl {α : Type} (f : State → α → State) (h : ∀ s a, OpFrame tag s (f s a))
    (l : List α) (s : State) : OpFrame tag s (l.foldl f s) := by
  induction l generalizing s with
  | nil => exact OpFrame.refl s
  | cons a l ih => exact (h s a).trans (ih _)

end algebra

/-! ## Lineage functions that leave the tables, meters and valves alone -/

/-- The Category Merge Table, the banks, the active bank, the meters and the valves are unchanged. -/
structure LinFrame (l k : Lineage) : Prop where
  catTab : k.catTab = l.catTab
  bankA : k.bankA = l.bankA
  bankB : k.bankB = l.bankB
  meters : k.meters = l.meters
  clusters : k.clusters = l.clusters
  active : k.active = l.active

theorem LinFrame.refl (l : Lineage) : LinFrame l l := ⟨rfl, rfl, rfl, rfl, rfl, rfl⟩

theorem LinFrame.trans {l k m : Lineage} (h : LinFrame l k) (g : LinFrame k m) : LinFrame l m :=
  ⟨g.1.trans h.1, g.2.trans h.2, g.3.trans h.3, g.4.trans h.4, g.5.trans h.5, g.6.trans h.6⟩

theorem LinFrame.toRouting {l k : Lineage} (h : LinFrame l k) : SameRouting l k :=
  ⟨h.meters, h.clusters, h.active⟩

section lineage

variable {l k : Lineage}

theorem LinFrame.setVessel (v : Nat) (x : Vessel) (h : LinFrame l k) : LinFrame l (k.setVessel v x) :=
  h.trans ⟨rfl, rfl, rfl, rfl, rfl, rfl⟩
theorem LinFrame.setFiller (v : Nat) (x : Filler) (h : LinFrame l k) : LinFrame l (k.setFiller v x) :=
  h.trans ⟨rfl, rfl, rfl, rfl, rfl, rfl⟩
theorem LinFrame.setRing (v : Nat) (x : Ring) (h : LinFrame l k) : LinFrame l (k.setRing v x) :=
  h.trans ⟨rfl, rfl, rfl, rfl, rfl, rfl⟩
theorem LinFrame.modifyOpenOf (v : Vessel) (g : Batch → Batch) (h : LinFrame l k) : LinFrame l (k.modifyOpenOf v g) :=
  h.trans ⟨rfl, rfl, rfl, rfl, rfl, rfl⟩
theorem LinFrame.updColl (n : Nat) (f : CollRec → CollRec) (h : LinFrame l k) : LinFrame l (k.updColl n f) :=
  h.trans ⟨rfl, rfl, rfl, rfl, rfl, rfl⟩
theorem LinFrame.updBlend (n : Nat) (f : BlendRec → BlendRec) (h : LinFrame l k) : LinFrame l (k.updBlend n f) :=
  h.trans ⟨rfl, rfl, rfl, rfl, rfl, rfl⟩
theorem LinFrame.dropColl (n : Nat) (h : LinFrame l k) : LinFrame l (k.dropColl n) :=
  h.trans ⟨rfl, rfl, rfl, rfl, rfl, rfl⟩
theorem LinFrame.dropBlend (n : Nat) (h : LinFrame l k) : LinFrame l (k.dropBlend n) :=
  h.trans ⟨rfl, rfl, rfl, rfl, rfl, rfl⟩
theorem LinFrame.addColl (r : CollRec) (h : LinFrame l k) : LinFrame l (k.addColl r) :=
  h.trans ⟨rfl, rfl, rfl, rfl, rfl, rfl⟩
theorem LinFrame.addBlend (r : BlendRec) (h : LinFrame l k) : LinFrame l (k.addBlend r) :=
  h.trans ⟨rfl, rfl, rfl, rfl, rfl, rfl⟩

theorem LinFrame.addRef (x : Key) (h : LinFrame l k) : LinFrame l (k.addRef x) := by
  cases x
  · exact h
  · exact h.trans ⟨rfl, rfl, rfl, rfl, rfl, rfl⟩
  · exact h.trans ⟨rfl, rfl, rfl, rfl, rfl, rfl⟩

theorem LinFrame.fold {α : Type} (f : Lineage → α → Lineage)
    (g : ∀ a k, LinFrame l k → LinFrame l (f k a)) (as : List α) (h : LinFrame l k) :
    LinFrame l (as.foldl f k) := by
  induction as generalizing k with
  | nil => exact h
  | cons a as ih => exact ih (g a _ h)

theorem LinFrame.addRefs (ks : List Key) (h : LinFrame l k) : LinFrame l (k.addRefs ks) :=
  LinFrame.fold _ (fun x _ h => h.addRef x) ks h

theorem LinFrame.releaseKey (fuel : Nat) (x : Key) (h : LinFrame l k) :
    LinFrame l (Lineage.releaseKey fuel x k) := by
  induction fuel generalizing x k with
  | zero => exact h
  | succ n ih =>
    unfold Lineage.releaseKey
    split
    · exact h
    · split
      · exact h
      · split
        · exact h.dropColl _
        · exact h.updColl _ _
    · split
      · exact h
      · split
        · exact LinFrame.fold _ (fun m _ h => ih m h) _ (h.dropBlend _)
        · exact h.updBlend _ _

theorem LinFrame.releaseAll (ks : List Key) (h : LinFrame l k) : LinFrame l (k.releaseAll ks) :=
  LinFrame.fold _ (fun x _ h => h.releaseKey _ x) ks h

theorem LinFrame.setUncertain (v : Nat) (h : LinFrame l k) : LinFrame l (k.setUncertain v) := by
  unfold Lineage.setUncertain
  dsimp only
  split
  · exact h
  · exact h.setVessel _ _
  · exact h.setVessel _ _
  · exact h.modifyOpenOf _ _

theorem LinFrame.setUncertainAll (vs : List Nat) (h : LinFrame l k) :
    LinFrame l (k.setUncertainAll vs) :=
  LinFrame.fold _ (fun v _ h => h.setUncertain v) vs h

theorem LinFrame.rederive (v : Nat) (h : LinFrame l k) : LinFrame l (k.rederive v) := by
  unfold Lineage.rederive
  dsimp only
  split
  · exact h
  · exact h.setVessel _ _
  · exact h.setVessel _ _
  · exact h.modifyOpenOf _ _

theorem LinFrame.setList (v : Nat) (x : List Share) (h : LinFrame l k) :
    LinFrame l (k.setList v x) := by
  unfold Lineage.setList
  dsimp only
  split
  · exact h.modifyOpenOf _ _
  · exact h.setVessel _ _

theorem LinFrame.setCat (v : Nat) (c : Cat) (h : LinFrame l k) : LinFrame l (k.setCat v c) := by
  unfold Lineage.setCat
  dsimp only
  split
  · exact h.modifyOpenOf _ _
  · exact h.setVessel _ _

theorem LinFrame.makeOpaque (e : WriteEntry) (h : LinFrame l k) : LinFrame l (k.makeOpaque e) := by
  unfold Lineage.makeOpaque
  split
  · exact h
  · split
    · exact h
    · exact h.addColl _
  · split
    · exact h
    · exact h.addBlend _

theorem LinFrame.applyWrite (w : WriteArgs) (h : LinFrame l k) : LinFrame l (k.applyWrite w) := by
  unfold Lineage.applyWrite
  exact LinFrame.rederive _ (LinFrame.setVessel _ _ (LinFrame.releaseAll _ (LinFrame.addRefs _
    (LinFrame.fold _ (fun e _ h => h.makeOpaque e) _ h))))

theorem Lineage.marks_lf (l : Lineage) (release : Bool) (a : MarkArg) :
    LinFrame l (l.marks release a).lin := by
  have hw : ∀ on p, LinFrame l (l.markWhere on p).lin := fun _ _ => ⟨rfl, rfl, rfl, rfl, rfl, rfl⟩
  unfold Lineage.marks
  split
  · split
    · exact LinFrame.refl l
    · unfold Lineage.markKey
      split
      · exact LinFrame.refl l
      · split
        · exact hw _ _
        · exact LinFrame.refl l
      · split
        · exact LinFrame.refl l
        · exact ⟨rfl, rfl, rfl, rfl, rfl, rfl⟩
  · unfold Lineage.markSample
    split
    · exact LinFrame.refl l
    · exact hw _ _
  · split
    · exact LinFrame.refl l
    · split
      · unfold Lineage.releaseFarm
        split
        · exact ⟨rfl, rfl, rfl, rfl, rfl, rfl⟩
        · exact LinFrame.refl l
      · unfold Lineage.suspectFarm
        split
        · exact hw _ _
        · split
          · exact LinFrame.refl l
          · exact ⟨rfl, rfl, rfl, rfl, rfl, rfl⟩

theorem Lineage.visit_lf (acc : Lineage × Nat) (n : Nat) :
    LinFrame acc.1 (Lineage.visit acc n).1 := by
  unfold Lineage.visit
  split
  · exact LinFrame.refl _
  · split
    · exact ⟨rfl, rfl, rfl, rfl, rfl, rfl⟩
    · exact LinFrame.refl _

theorem Lineage.pass_lf (l : Lineage) : LinFrame l l.pass.1 := by
  have h : ∀ (ns : List Nat) (acc : Lineage × Nat),
      LinFrame acc.1 (ns.foldl Lineage.visit acc).1 := by
    intro ns
    induction ns with
    | nil => exact fun acc => LinFrame.refl _
    | cons n ns ih => exact fun acc => (Lineage.visit_lf acc n).trans (ih _)
  exact h _ (l, 0)

theorem Lineage.passes_lf (fuel : Nat) (l : Lineage) : LinFrame l (Lineage.passes fuel l).1 := by
  induction fuel generalizing l with
  | zero => exact LinFrame.refl l
  | succ n ih =>
    unfold Lineage.passes
    dsimp only
    split
    · exact l.pass_lf
    · exact l.pass_lf.trans (ih _)

theorem Lineage.sweep_lf (l : Lineage) (release : Bool) (d : Option Nat) :
    LinFrame l (l.sweep release d).1 := by
  unfold Lineage.sweep
  refine LinFrame.trans ?_ (Lineage.passes_lf _ _)
  split
  · exact ⟨rfl, rfl, rfl, rfl, rfl, rfl⟩
  · unfold Lineage.markDirect
    split
    · exact LinFrame.refl l
    · exact (LinFrame.refl l).updBlend _ _

theorem LinFrame.rederiveBatches (h : LinFrame l k) : LinFrame l k.rederiveBatches :=
  h.trans ⟨rfl, rfl, rfl, rfl, rfl, rfl⟩

theorem LinFrame.rederiveVessels (h : LinFrame l k) : LinFrame l k.rederiveVessels :=
  LinFrame.fold _ (fun v _ h => h.rederive v) _ h

end lineage

/-! ## Operations outside the meters: both frames at once -/

/-- The frame of an operation that moves milk or settles lineage and leaves meters and valves. -/
structure FullFrame (tag : Nat) (s t : State) : Prop where
  op : OpFrame tag s t
  routing : SameRouting s.lin t.lin

section full

variable {tag : Nat} {s t u : State}

theorem FullFrame.refl (s : State) : FullFrame tag s s := ⟨OpFrame.refl s, ⟨rfl, rfl, rfl⟩⟩

theorem FullFrame.trans (h : FullFrame tag s t) (g : FullFrame tag t u) : FullFrame tag s u :=
  ⟨h.op.trans g.op, ⟨g.routing.1.trans h.routing.1, g.routing.2.trans h.routing.2,
    g.routing.3.trans h.routing.3⟩⟩

theorem FullFrame.setLin {l : Lineage} (h : FullFrame tag s t) (g : LinFrame t.lin l) :
    FullFrame tag s (t.setLin l) :=
  h.trans ⟨OpFrame.setLin l g.catTab g.bankA g.bankB, g.toRouting⟩

theorem FullFrame.write (p : Payload) (h : FullFrame tag s t) : FullFrame tag s (t.write tag p) :=
  h.trans ⟨OpFrame.write t p, ⟨rfl, rfl, rfl⟩⟩

theorem FullFrame.raise (f : Option Nat) (c : CondVals) (h : FullFrame tag s t) :
    FullFrame tag s (t.raise tag f c) :=
  h.trans ⟨OpFrame.raise t f c, by rw [State.raise_lin]; exact ⟨rfl, rfl, rfl⟩⟩

theorem FullFrame.countOnly (r : Nat) (h : FullFrame tag s t) : FullFrame tag s (t.countOnly r) :=
  h.trans ⟨OpFrame.countOnly t r, ⟨rfl, rfl, rfl⟩⟩

theorem FullFrame.setUncertain (v : Nat) (h : FullFrame tag s t) :
    FullFrame tag s (t.setUncertain v) :=
  h.setLin ((LinFrame.refl _).setUncertain v)

theorem FullFrame.fold {α : Type} (f : State → α → State)
    (g : ∀ a t, FullFrame tag s t → FullFrame tag s (f t a)) (l : List α) (h : FullFrame tag s t) :
    FullFrame tag s (l.foldl f t) := by
  induction l generalizing t with
  | nil => exact h
  | cons a l ih => exact ih (g a _ h)

theorem FullFrame.ite {c : Prop} [Decidable c] (h : FullFrame tag s t) (g : FullFrame tag s u) :
    FullFrame tag s (if c then t else u) := by
  split
  · exact h
  · exact g

end full

/-! ## Batches -/

section batches

variable {tag : Nat} {s t : State}

theorem FullFrame.closeBatch (f : Nat) (r : CloseReason) (x : Option TimeStamp) (n : FillerState)
    (h : FullFrame tag s t) : FullFrame tag s (t.closeBatch f r tag x n) := by
  unfold State.closeBatch
  dsimp only
  split
  · exact h
  · exact (h.setLin ((LinFrame.refl _).setFiller _ _)).write _

theorem FullFrame.evict (f : Nat) (h : FullFrame tag s t) : FullFrame tag s (t.evict f).1 := by
  unfold State.evict
  dsimp only
  split
  · exact h
  · split
    · exact h
    · exact h.setLin (((LinFrame.refl _).setFiller _ _).releaseAll _)

/-- Sending a notice changes the one port at most, and that only for a batch that has a code and finds a
place. -/
theorem State.sendNotice_spec (s : State) (v : Vessel) (b : Batch) : ∃ x,
    (s.sendNotice v b).1 = s.setPort v.coderPort x ∧ (s.port v.coderPort).notified x ∧
    (x = s.port v.coderPort ∨ (b.indefinite = false ∧ (s.sendNotice v b).2 = false)) := by
  have hs : ∀ q, s = s.setPort q (s.port q) := fun q => by cases q <;> rfl
  have ho := s.offerNotice_ports v.coderPort (s.noticeFor v b) v.coderPort
  unfold State.sendNotice
  split
  · exact ⟨_, hs _, PortState.notified.refl _, .inl rfl⟩
  · rename_i hb
    revert ho
    unfold State.offerNotice
    dsimp only
    split
    · intro ho
      exact ⟨_, rfl, by simpa using ho, .inr ⟨by simpa using hb, rfl⟩⟩
    · exact fun _ => ⟨_, hs _, PortState.notified.refl _, .inl rfl⟩

/-- The batch with its notice sent, in its ring and in its record: the one step that a port may gain a
notice by. -/
theorem FullFrame.announce (f : Nat) (v : Vessel) (b : Batch) (o : Option Nat)
    (h : FullFrame tag s t) :
    let r := t.sendNotice v b
    let b' := { b with unsent := r.2 }
    FullFrame tag s ((r.1.appendBatch f v b').write tag (.batchOpened b' o)) := by
  refine h.trans ?_
  obtain ⟨x, hx, hn, hc⟩ := t.sendNotice_spec v b
  rw [hx]
  refine ⟨⟨?_, ?_, ?_, ?_, ?_, ?_, ?_, ?_, ?_, ?_, ?_, ?_, ?_, ?_, ?_, ?_,
    ⟨[.batchOpened { b with unsent := (t.sendNotice v b).2 } o], ?_, fun p hp => ?_⟩, fun p => ?_⟩,
    ?_, ?_, ?_⟩
  case refine_18 =>
    have he : x ≠ t.port v.coderPort := fun he => hp (by
      rw [he]; simp only [State.write_port, State.appendBatch, State.port_setLin, State.port_setPort]
      split <;> simp_all)
    exact ⟨_, o, List.mem_singleton.mpr rfl, hc.resolve_left he⟩
  case refine_19 =>
    simp only [State.write_port, State.appendBatch, State.port_setLin, State.port_setPort]
    split
    · subst_vars; exact hn
    · exact PortState.notified.refl _
  all_goals (unfold State.appendBatch; cases v.coderPort <;> rfl)

theorem FullFrame.openingConditions (f : Nat) (v : Vessel) (b : Batch) (h : FullFrame tag s t) :
    FullFrame tag s (t.openingConditions f v b tag) := by
  have h1 : FullFrame tag s (if b.indefinite then t.raise tag (some f) (.codeExhausted f b.serial)
      else t) := FullFrame.ite (h.raise _ _) h
  have h2 : FullFrame tag s (if b.unsent then (if b.indefinite then t.raise tag (some f)
      (.codeExhausted f b.serial) else t).raise tag (some f) (.codeUnsent f b.serial v.coderPort)
      else (if b.indefinite then t.raise tag (some f) (.codeExhausted f b.serial) else t)) :=
    FullFrame.ite (h1.raise _ _) h1
  exact FullFrame.ite (h2.raise _ _) h2

theorem FullFrame.openBatch (f : Nat) (v : Vessel) (p : Nat) (d : Cat) (c : OpenCause)
    (h : FullFrame tag s t) : FullFrame tag s (t.openBatch f v p d c tag) := by
  unfold State.openBatch
  dsimp only
  exact (((h.closeBatch f _ _ _).evict f).announce f v _ _).openingConditions f v _

theorem FullFrame.flowInto (v : Vessel) (h : FullFrame tag s t) : FullFrame tag s (t.flowInto v) :=
  h.setLin ((LinFrame.refl _).setFiller _ _)

end batches

/-! ## The transfer -/

section transfer

variable {tag : Nat} {s t : State}

theorem FullFrame.prepareDst (dst : Nat) (d : Bool) (h : FullFrame tag s t) :
    FullFrame tag s (t.prepareDst dst tag d) := by
  unfold State.prepareDst
  dsimp only
  split
  · exact FullFrame.ite (h.setLin ((LinFrame.refl _).setVessel _ _)) h
  · exact FullFrame.ite (FullFrame.ite ((h.openBatch _ _ _ _ _).setUncertain _)
      (h.openBatch _ _ _ _ _)) h
  · exact h
  · exact h

theorem FullFrame.draw (src dst v : Nat) (h : FullFrame tag s t) :
    FullFrame tag s (t.draw src dst v tag).st := by
  unfold State.draw
  split
  · unfold State.drawBay
    dsimp only
    have h1 := h.setLin ((LinFrame.refl t.lin).setRing (t.lin.vessel src).bayIndex
      { t.lin.ring (t.lin.vessel src).bayIndex with
        slots := vset (t.lin.ring (t.lin.vessel src).bayIndex).slots
          (t.lin.ring (t.lin.vessel src).bayIndex).disch
          ((t.lin.ring (t.lin.vessel src).bayIndex).dischSlot.afterDraw v) })
    exact FullFrame.ite h1 ((h1.setUncertain _).raise _ _)
  · unfold State.drawStore
    dsimp only
    split
    · unfold State.drawUnseeded
      dsimp only
      exact FullFrame.ite ((h.setUncertain _).raise _ _) ((h.setUncertain _).countOnly _)
    · split
      · exact h.setLin ((LinFrame.refl _).setVessel _ _)
      · exact ((h.setLin ((LinFrame.refl _).setVessel _ _)).setUncertain _).raise _ _

theorem FullFrame.formBlend (dst : Nat) (c : Cat) (ms : List Share) (h : FullFrame tag s t) :
    FullFrame tag s (t.formBlend dst c ms tag).1 := by
  unfold State.formBlend
  dsimp only
  exact FullFrame.write _ (h.setLin ⟨rfl, rfl, rfl, rfl, rfl, rfl⟩)

theorem FullFrame.truncate (dst : Nat) (l : List Share) (h : FullFrame tag s t) :
    FullFrame tag s (t.truncate dst l tag).1 := by
  unfold State.truncate
  dsimp only
  exact ((h.setUncertain _).write _).raise _ _

theorem FullFrame.stepB (m : Merged) (dst : Nat) (b l ps : List Share) (c : Cat)
    (h : FullFrame tag s m.st) : FullFrame tag s (m.stepB dst b l ps c tag).st := by
  unfold Merged.stepB
  split
  · exact h.truncate _ _
  · exact h.formBlend _ _ _

theorem FullFrame.mergeList (dst : Nat) (pre ps : List Share) (c : Cat) (h : FullFrame tag s t) :
    FullFrame tag s (t.mergeList dst pre ps c tag).st := by
  unfold State.mergeList
  dsimp only
  split
  · exact h
  · split
    · exact FullFrame.stepB _ _ _ _ _ _ h
    · split
      · exact h.truncate _ _
      · split
        · exact h.formBlend _ _ _
        · exact FullFrame.stepB _ _ _ _ _ _ (h.formBlend _ _ _)

theorem FullFrame.mergeCat (dst : Nat) (c : Cat) (h : FullFrame tag s t) :
    FullFrame tag s (t.mergeCat dst c tag) := by
  unfold State.mergeCat
  dsimp only
  have h1 := h.setLin ((LinFrame.refl t.lin).setCat dst
    (t.lin.merge (t.lin.catOf (t.lin.vessel dst)) c))
  split
  · exact FullFrame.ite h1 (h1.raise _ _)
  · exact h1

theorem FullFrame.ceilingRaise (dst d : Nat) (h : FullFrame tag s t) :
    FullFrame tag s (t.ceilingRaise dst d tag) :=
  FullFrame.ite h ((h.setUncertain _).raise _ _)

theorem FullFrame.capacityRaise (dst b d : Nat) (h : FullFrame tag s t) :
    FullFrame tag s (t.capacityRaise dst b d tag) :=
  FullFrame.ite (h.raise _ _) h

theorem FullFrame.transfer (src dst v : Nat) (d : Bool) (h : FullFrame tag s t) :
    FullFrame tag s (t.transfer src dst v tag d).st := by
  unfold State.transfer
  dsimp only
  apply FullFrame.setLin
  · apply FullFrame.ite
    · apply FullFrame.flowInto
      apply FullFrame.capacityRaise
      apply FullFrame.ite
      · apply FullFrame.setUncertain
        apply FullFrame.ite
        · exact (((((h.prepareDst dst d).draw src dst v).ceilingRaise _ _).mergeList _ _ _ _).setLin
            ((LinFrame.refl _).setList _ _))
        · exact (((((h.prepareDst dst d).draw src dst v).ceilingRaise _ _).mergeList _ _ _ _).setLin
            ((LinFrame.refl _).setList _ _)).mergeCat _ _
      · apply FullFrame.ite
        · exact (((((h.prepareDst dst d).draw src dst v).ceilingRaise _ _).mergeList _ _ _ _).setLin
            ((LinFrame.refl _).setList _ _))
        · exact (((((h.prepareDst dst d).draw src dst v).ceilingRaise _ _).mergeList _ _ _ _).setLin
            ((LinFrame.refl _).setList _ _)).mergeCat _ _
    · apply FullFrame.capacityRaise
      apply FullFrame.ite
      · apply FullFrame.setUncertain
        apply FullFrame.ite
        · exact (((((h.prepareDst dst d).draw src dst v).ceilingRaise _ _).mergeList _ _ _ _).setLin
            ((LinFrame.refl _).setList _ _))
        · exact (((((h.prepareDst dst d).draw src dst v).ceilingRaise _ _).mergeList _ _ _ _).setLin
            ((LinFrame.refl _).setList _ _)).mergeCat _ _
      · apply FullFrame.ite
        · exact (((((h.prepareDst dst d).draw src dst v).ceilingRaise _ _).mergeList _ _ _ _).setLin
            ((LinFrame.refl _).setList _ _))
        · exact (((((h.prepareDst dst d).draw src dst v).ceilingRaise _ _).mergeList _ _ _ _).setLin
            ((LinFrame.refl _).setList _ _)).mergeCat _ _
  · exact ((((LinFrame.refl _).addRefs _).releaseAll _).rederive _).rederive _

end transfer

/-! ## The ports in a transfer -/

section transferPorts
variable (s : State) (tag : Nat) (p : Port)

@[simp] theorem State.setUncertain_port (v : Nat) : (s.setUncertain v).port p = s.port p := by
  simp [State.setUncertain]

@[simp] theorem State.countOnly_port (row : Nat) : (s.countOnly row).port p = s.port p := by
  simp [State.countOnly]

theorem State.draw_port (src dst v : Nat) : (s.draw src dst v tag).st.port p = s.port p := by
  unfold State.draw State.drawBay State.drawStore State.drawUnseeded State.drawPlain State.drawOver
  dsimp only
  (repeat' split) <;> simp

theorem State.truncate_port (dst : Nat) (l : List Share) :
    (s.truncate dst l tag).1.port p = s.port p := by
  unfold State.truncate
  simp

theorem State.formBlend_port (dst : Nat) (c : Cat) (ms : List Share) :
    (s.formBlend dst c ms tag).1.port p = s.port p := by
  unfold State.formBlend
  simp

theorem State.mergeList_port (dst : Nat) (pre ps : List Share) (c : Cat) :
    (s.mergeList dst pre ps c tag).st.port p = s.port p := by
  unfold State.mergeList Merged.stepB
  dsimp only
  (repeat' split) <;> simp only [State.truncate_port, State.formBlend_port]

theorem State.mergeCat_port (dst : Nat) (c : Cat) : (s.mergeCat dst c tag).port p = s.port p := by
  unfold State.mergeCat
  dsimp only
  (repeat' split) <;> simp

/-- A transfer gives no port a notice but through the batch it may open (R103, R104). -/
theorem State.transfer_port (src dst v : Nat) (d : Bool) :
    (s.transfer src dst v tag d).st.port p = (s.prepareDst dst tag d).port p := by
  have hi : ∀ {c : Prop} [Decidable c] (t u : State),
      (if c then t else u).port p = if c then t.port p else u.port p := fun t u => by split <;> rfl
  unfold State.transfer State.capacityRaise State.flowInto State.ceilingRaise
  dsimp only
  simp only [hi, State.port_setLin, State.setUncertain_port, State.raise_port, State.mergeCat_port,
    State.mergeList_port, State.draw_port, ite_self]

end transferPorts
/-! ## The operations that leave meters and valves alone -/

section operations

variable (s : State) (tag : Nat)

theorem State.takeIn_frame (w : TimeStamp) (v k : Nat) (i : ManifestItem) (c : Bool) :
    FullFrame tag s (s.takeIn w v k i c tag) := by
  unfold State.takeIn State.createColl
  dsimp only
  apply FullFrame.setLin
  · apply FullFrame.write
    apply FullFrame.setLin (FullFrame.refl s)
    exact ⟨rfl, rfl, rfl, rfl, rfl, rfl⟩
  · exact LinFrame.rederive _ (LinFrame.setRing _ _ (LinFrame.refl _))

theorem State.admitOrRefuse_frame (w : TimeStamp) (v k : Nat) (i : ManifestItem) (c : Bool) :
    FullFrame tag s (s.admitOrRefuse w v k i c tag) :=
  FullFrame.ite ((FullFrame.refl s).raise _ _)
    (FullFrame.ite ((FullFrame.refl s).raise _ _) (s.takeIn_frame tag _ _ _ _ _))

theorem State.opManifest_frame (w : TimeStamp) (i : ManifestItem) :
    FullFrame tag s (s.opManifest tag w i) := by
  have hr : ∀ c, FullFrame tag s (s.raise tag none c) := fun c => (FullFrame.refl s).raise _ c
  unfold State.opManifest
  dsimp only
  split
  · exact hr _
  · split
    · exact hr _
    · split
      · exact hr _
      · split
        · split
          · exact hr _
          · exact s.admitOrRefuse_frame tag _ _ _ _ _
        · split
          · exact hr _
          · exact s.admitOrRefuse_frame tag _ _ _ _ _

theorem State.raiseUnknown_frame (v : Option Nat) (b t c : Nat) (x : UnknownCause) :
    FullFrame tag s (s.raiseUnknown tag v b t c x) := (FullFrame.refl s).raise _ _

theorem State.opCompSelect_frame (b t c : Nat) : FullFrame tag s (s.opCompSelect tag b t c) := by
  unfold State.opCompSelect
  dsimp only
  split
  · exact s.raiseUnknown_frame tag _ _ _ _ _
  · split
    · exact s.raiseUnknown_frame tag _ _ _ _ _
    · split
      · exact FullFrame.refl s
      · exact (FullFrame.refl s).setLin ((LinFrame.refl _).setRing _ _)

theorem FullFrame.closeSlot {s t : State} {tag : Nat} (v b : Nat) (r : SlotReason) (k : Nat)
    (h : FullFrame tag s t) : FullFrame tag s (t.closeSlot v b r tag k) := by
  unfold State.closeSlot
  dsimp only
  apply FullFrame.setLin
  · exact h.write _
  · exact LinFrame.rederive _ (LinFrame.setRing _ _ (LinFrame.releaseAll _ (LinFrame.refl _)))

theorem State.finishSlot_frame (v b : Nat) (r : SlotReason) (k : Nat) :
    FullFrame tag s (s.finishSlot v b r tag k) := by
  unfold State.finishSlot
  dsimp only
  exact ((FullFrame.refl s).closeSlot v b r k).setLin ((LinFrame.refl _).setRing _ _)

theorem State.opCompDone_frame (b : Nat) : FullFrame tag s (s.opCompDone tag b) := by
  unfold State.opCompDone
  split
  · exact s.raiseUnknown_frame tag _ _ _ _ _
  · split
    · exact s.raiseUnknown_frame tag _ _ _ _ _
    · exact s.finishSlot_frame tag _ _ _ _

theorem State.opCompReject_frame (b t c : Nat) : FullFrame tag s (s.opCompReject tag b t c) := by
  unfold State.opCompReject
  dsimp only
  split
  · exact s.raiseUnknown_frame tag _ _ _ _ _
  · split
    · exact s.raiseUnknown_frame tag _ _ _ _ _
    · split
      · exact s.finishSlot_frame tag _ _ _ _
      · exact (FullFrame.refl s).closeSlot _ _ _ _

theorem State.opCipStart_frame (v : Nat) : FullFrame tag s (s.opCipStart tag v) := by
  have hw : ∀ p, FullFrame tag s (s.write tag p) := fun p => (FullFrame.refl s).write p
  unfold State.opCipStart
  split
  · exact hw _
  · unfold State.storeCipStart
    dsimp only
    split
    · exact hw _
    · exact (hw _).setLin (((LinFrame.refl _).releaseAll _).setVessel _ _)
  · unfold State.bayCipStart
    dsimp only
    split
    · exact hw _
    · apply FullFrame.write
      apply FullFrame.setLin
      · exact FullFrame.fold _ (fun k _ h => h.closeSlot _ _ _ k) _ (FullFrame.refl s)
      · exact LinFrame.setVessel _ _ (LinFrame.setRing _ _ (LinFrame.refl _))
  · unfold State.fillerCipStart
    dsimp only
    split
    · exact hw _
    · exact ((FullFrame.refl s).setLin ((LinFrame.refl _).setFiller _ _)).write _
    · exact ((FullFrame.refl s).closeBatch _ _ _ _).write _

theorem State.opCipEnd_frame (v : Nat) : FullFrame tag s (s.opCipEnd tag v) := by
  have hw : ∀ p, FullFrame tag s (s.write tag p) := fun p => (FullFrame.refl s).write p
  unfold State.opCipEnd
  split
  · exact hw _
  · exact FullFrame.ite (hw _)
      (((FullFrame.refl s).setLin ((LinFrame.refl _).setVessel _ _)).write _)
  · exact FullFrame.ite (((FullFrame.refl s).setLin
      (LinFrame.setVessel _ _ (LinFrame.setRing _ _ (LinFrame.refl _)))).write _) (hw _)
  · exact FullFrame.ite (((FullFrame.refl s).setLin ((LinFrame.refl _).setFiller _ _)).write _) (hw _)

theorem State.opVesselWrite_frame (w : WriteArgs) : FullFrame tag s (s.opVesselWrite tag w) :=
  FullFrame.ite (((FullFrame.refl s).setLin ((LinFrame.refl _).applyWrite _)).write _)
    ((FullFrame.refl s).write _)

theorem State.opManual_frame (a b v : Nat) : FullFrame tag s (s.opManual tag a b v).1 := by
  unfold State.opManual
  dsimp only
  split
  · exact (FullFrame.refl s).transfer _ _ _ _
  · exact (FullFrame.refl s).write _

theorem State.opBatchOpen_frame (c : Bool) (f p k : Nat) :
    FullFrame tag s (s.opBatchOpen tag c f p k) := by
  unfold State.opBatchOpen
  split
  · exact FullFrame.ite ((FullFrame.refl s).write _) ((FullFrame.refl s).openBatch _ _ _ _ _)
  · exact (FullFrame.refl s).write _

theorem State.opBatchClose_frame (f : Nat) : FullFrame tag s (s.opBatchClose tag f) := by
  unfold State.opBatchClose
  split
  · exact (FullFrame.refl s).write _
  · exact FullFrame.ite ((FullFrame.refl s).closeBatch _ _ _ _) ((FullFrame.refl s).write _)

theorem State.opIdleClose_frame (f n : Nat) (x : TimeStamp) :
    FullFrame tag s (s.opIdleClose tag f n x) :=
  FullFrame.ite ((FullFrame.refl s).closeBatch _ _ _ _) (FullFrame.refl s)

theorem State.opCarton_frame (f n : Nat) : FullFrame tag s (s.opCarton f n) := by
  unfold State.opCarton
  split
  · exact FullFrame.refl s
  · exact (FullFrame.refl s).setLin ((LinFrame.refl _).setFiller _ _)

theorem State.opDispatch_frame (c : List Byte) (n k : Nat) :
    FullFrame tag s (s.opDispatch tag c n k) := by
  unfold State.opDispatch
  split
  · rename_i f b _
    unfold State.dispatchResolved
    dsimp only
    have h1 : FullFrame tag s ((s.setLin (s.lin.setFiller f ((s.lin.filler f).updBatch b.serial
        (fun x => { x with dispatched := grow32 b.dispatched n })))).write tag
        (.dispatched c n k b.serial f b.produced (grow32 b.dispatched n))) :=
      ((FullFrame.refl s).setLin ((LinFrame.refl _).setFiller _ _)).write _
    exact FullFrame.ite ((FullFrame.ite (h1.raise _ _) h1).raise _ _)
      (FullFrame.ite (h1.raise _ _) h1)
  · exact ((FullFrame.refl s).write _).raise _ _

theorem State.opGap_frame (n : Nat) : FullFrame tag s (s.opGap tag n) :=
  ((FullFrame.refl s).setLin ((LinFrame.refl _).setUncertainAll _)).raise _ _

theorem State.opMark_frame (r : Bool) (a : MarkArg) : FullFrame tag s (s.opMark tag r a) := by
  unfold State.opMark
  dsimp only
  split
  · unfold State.writeFlags
    apply FullFrame.fold _ (fun b _ h => h.write _)
    unfold State.writeSweep
    apply FullFrame.write
    apply (FullFrame.refl s).setLin
    apply LinFrame.rederiveVessels
    apply LinFrame.rederiveBatches
    exact (s.lin.marks_lf r a).trans (Lineage.sweep_lf _ _ _)
  · exact (FullFrame.refl s).write _

theorem HoldUnit.unlatch_keeps (h : HoldUnit) (is : List Nat) :
    ∃ ls, h.unlatch is = { h with latches := ls } := by
  induction is generalizing h with
  | nil => exact ⟨h.latches, rfl⟩
  | cons i is ih =>
    obtain ⟨ls, hls⟩ := ih { h with latches := vset h.latches i 0 }
    exact ⟨ls, by simpa [HoldUnit.unlatch] using hls⟩

theorem State.opHoldRelease_frame (a : Nat) : FullFrame tag s (s.opHoldRelease tag a).1 := by
  unfold State.opHoldRelease
  split
  · rename_i is _
    obtain ⟨ls, hls⟩ := s.hold.unlatch_keeps is
    rw [hls]
    exact ⟨⟨rfl, rfl, rfl, rfl, rfl, rfl, rfl, rfl, rfl, rfl, rfl, rfl, rfl, rfl, rfl, rfl,
      ⟨[], rfl, fun p h => absurd (by cases p <;> rfl) h⟩,
      fun p => by cases p <;> exact PortState.notified.refl _⟩, ⟨rfl, rfl, rfl⟩⟩
  · exact (FullFrame.refl s).write _

end operations

end Sys2Proof.Machine
end

