-- ==== Sys2Proof/Laws/Engine.lean ====
section
/-! SUPPORT. The end of an engine operation, the row that carries out an entry, and the frames of the
operations on meters and valves. -/

namespace Sys2Proof.Machine

open Sys2Proof

/-! ## The end of an operation -/

/-- A run of records written after a state. -/
theorem State.writes_eq (s : State) (tag : Nat) (ps : List Payload) :
    ps.foldl (fun s p => s.write tag p) s = { s with jrn := s.jrn.writeAll s.now tag ps } := by
  induction ps generalizing s with
  | nil => rfl
  | cons p ps ih => rw [List.foldl_cons, ih]; rfl

/-- The lineage state after an operation is what its rule left, but for pending idle closes. -/
theorem OpResult.lin {s t : State} {tag : Nat} {l : Lineage} {h : HoldUnit} {ps after : List Payload}
    {released : List Nat} (r : OpResult s t tag l h ps after released) : SameButIdle l t.lin := by
  rw [r.ended]
  exact (State.settle_frame _).lin

/-- The evaluation's own records are those that the two states of the unit tell apart. -/
theorem holdRecords_eq (s : State) (before after : HoldUnit) (rel : List Nat)
    (hb : ∀ i, i < 9 → before.view i = s.hold.view i) (ha : ∀ i, i < 9 → after.view i = s.holdView i) :
    ((List.range 9).filter (s.holdMoved rel)).map (s.holdPayload .evaluate rel) =
      holdRecords before after s.lin rel := by
  unfold holdRecords
  have hf : (List.range 9).filter (s.holdMoved rel) = (List.range 9).filter (fun i =>
      decide (i ∈ rel ∨ before.view i ≠ after.view i)) :=
    List.filter_congr (fun i hi => by
      have h9 := List.mem_range.mp hi
      simp [State.holdMoved, hb i h9, ha i h9, Bool.decide_or, bne, beq_eq_decide])
  rw [hf]
  refine List.map_congr_left (fun i hi => ?_)
  have h9 := List.mem_range.mp (List.mem_of_mem_filter hi)
  simp only [State.holdPayload, hb i h9, ha i h9, List.contains_eq_mem, decide_eq_true_eq,
    holdByte, State.holdBatch]
  split <;> rfl

/-- What the end of an operation leaves, from what its rule left. -/
theorem OpEnd.finish_result {s : State} {tag : Nat} (o : OpEnd) (h : OpFrame tag s o.st)
    (ps : List Payload) (hj : o.st.jrn = s.jrn.writeAll s.now tag ps) :
    OpResult s (o.finish tag) tag o.st.lin o.st.hold ps o.after o.released := by
  have he := o.st.evaluate_spec tag .evaluate o.released
  have hv : ∀ i, i < 9 → vget ((List.range 9).foldl (fun v i => vset v i (o.st.holdView i))
      o.st.hold.shown) i {} = o.st.holdView i := fun i hi => vget_foldl_vset _ _ _ 9 i hi hi
  generalize (List.range 9).foldl (fun v i => vset v i (o.st.holdView i)) o.st.hold.shown = sh at he hv
  rw [holdRecords_eq o.st s.hold { o.st.hold with shown := sh } o.released
    (fun i _ => by unfold HoldUnit.view; rw [h.shown]) hv] at he
  generalize hr : holdRecords s.hold { o.st.hold with shown := sh } o.st.lin o.released = hs at he
  have hf : o.finish tag = State.settle { o.st with
      hold := { o.st.hold with shown := sh }
      jrn := ((o.st.jrn.writeAll o.st.now tag hs).writeAll o.st.now tag o.after).publish
      inFlight := none } := by
    unfold OpEnd.finish
    dsimp only
    rw [he, State.writes_eq]
    rfl
  rw [hf]
  have g := State.settle_frame { o.st with
      hold := { o.st.hold with shown := sh }
      jrn := ((o.st.jrn.writeAll o.st.now tag hs).writeAll o.st.now tag o.after).publish
      inFlight := none }
  have ht := (congrArg State.settle g.undo).symm
  generalize State.settle { o.st with
      hold := { o.st.hold with shown := sh }
      jrn := ((o.st.jrn.writeAll o.st.now tag hs).writeAll o.st.now tag o.after).publish
      inFlight := none } = t at g ht
  refine ⟨g.resetAsserted.trans h.resetAsserted, fun p => ?_, ?_, g.dec.trans h.dec,
    g.waiting.trans h.waiting, ?_, ?_, ?_, ?_, g.mgmt.trans h.mgmt,
    g.pending.trans h.pending⟩
  · rw [g.port]
    cases p
    · exact h.ports .a
    · exact h.ports .b
  · obtain ⟨qs, hq, hn⟩ := h.jrn
    have he : qs = ps := Journal.writeAll_injective (hq.symm.trans hj)
    intro p hp
    rw [g.port] at hp
    exact he ▸ hn p (by cases p <;> exact hp)
  · rw [← h.evq]
    exact ht
  · rw [g.hold]
  · intro i hi
    rw [State.holdView_congr (s := o.st) (by rw [g.hold]) (by rw [g.hold]) (by rw [g.hold])
      (by rw [g.hold]) (fun k hk => by rw [g.lin.openBatch k hk])]
    unfold HoldUnit.view
    rw [g.hold]
    exact hv i hi
  · rw [g.jrn, g.hold, hr, hj, h.now, Journal.writeAll_append, Journal.writeAll_append]

/-- Every operation's end, with the records left unnamed. -/
theorem OpEnd.finish_spec {s : State} {tag : Nat} (o : OpEnd) (h : OpFrame tag s o.st) :
    ∃ ps, OpResult s (o.finish tag) tag o.st.lin o.st.hold ps o.after o.released := by
  obtain ⟨ps, hp, _⟩ := h.jrn
  exact ⟨ps, o.finish_result h ps hp⟩

/-! ## The row of an entry (R159) -/

/-- The row of the entry in flight carries out its operation. -/
theorem exec_row {s : State} {e : TakenEntry} (h : Taken s e) :
    exec e.val.row s = .next ((e.operation s).finish e.tag) := by
  obtain ⟨h1, h2⟩ := h
  have hs : s.settle = s := s.settle_of_inFlight e h2
  have hc : s.current = some e := by simp [State.current, h1, hs, h2]
  obtain ⟨⟨v, a, t, c⟩, w⟩ := e
  cases v <;>
    · simp only [EntryVal.row, exec, execMeterEntry, execValveEntry, execManifestEntry,
        execCompSelectEntry, execCompDoneEntry, execCompRejectEntry, execCipStartEntry,
        execCipEndEntry, execBatchOpenEntry, execBatchCloseEntry, execCartonEntry,
        execDispatchEntry, execIdleCloseEntry, execGapEntry, execSwitchBankEntry,
        execVesselWriteEntry, execManualTransferEntry, execSuspectKeyEntry,
        execSuspectSampleEntry, execSuspectFarmEntry, execReleaseKeyEntry,
        execReleaseSampleEntry, execReleaseFarmEntry, execHoldReleaseEntry, State.atEntry, hc, hs]
      rfl

/-! ## Operations on meters and valves -/

/-- Banks, valves and the active bank are unchanged, and every meter but for its open segment. -/
structure SegFrame (l k : Lineage) : Prop where
  bankA : k.bankA = l.bankA
  bankB : k.bankB = l.bankB
  clusters : k.clusters = l.clusters
  active : k.active = l.active
  meters : ∀ m, ∃ g, k.meter m = { l.meter m with seg := g }

theorem SegFrame.refl (l : Lineage) : SegFrame l l := ⟨rfl, rfl, rfl, rfl, fun _ => ⟨_, rfl⟩⟩

theorem SegFrame.trans {l k n : Lineage} (h : SegFrame l k) (g : SegFrame k n) : SegFrame l n := by
  refine ⟨g.1.trans h.1, g.2.trans h.2, g.3.trans h.3, g.4.trans h.4, fun m => ?_⟩
  obtain ⟨a, ha⟩ := h.meters m
  obtain ⟨b, hb⟩ := g.meters m
  exact ⟨b, by rw [hb, ha]⟩

theorem LinFrame.toSeg {l k : Lineage} (h : LinFrame l k) : SegFrame l k :=
  ⟨h.bankA, h.bankB, h.clusters, h.active, fun m => ⟨(l.meter m).seg, by
    simp [Lineage.meter, h.meters]⟩⟩

theorem FullFrame.toSeg {tag : Nat} {s t : State} (h : FullFrame tag s t) : SegFrame s.lin t.lin :=
  ⟨h.op.bankA, h.op.bankB, h.routing.clusters, h.routing.active, fun m => ⟨(s.lin.meter m).seg, by
    simp [Lineage.meter, h.routing.meters]⟩⟩

theorem Lineage.meter_updMeter (l : Lineage) (m k : Nat) (f : Meter → Meter) :
    (l.updMeter m f).meter k = if m = k ∧ m < 48 then f (l.meter m) else l.meter k := by
  unfold Lineage.updMeter Lineage.meter
  simp only [Lineage.setMeter_meters]
  rw [vget_vset]

theorem SegFrame.updMeter (l : Lineage) (m : Nat) (f : Meter → Segment) :
    SegFrame l (l.updMeter m (fun x => { x with seg := f x })) := by
  refine ⟨rfl, rfl, rfl, rfl, fun k => ?_⟩
  rw [Lineage.meter_updMeter]
  split
  · rename_i h; obtain ⟨rfl, _⟩ := h; exact ⟨_, rfl⟩
  · exact ⟨_, rfl⟩

/-- The frame of an operation that also counts flow in open segments. -/
structure FlowFrame (tag : Nat) (s t : State) : Prop where
  op : OpFrame tag s t
  seg : SegFrame s.lin t.lin

section flow

variable {tag : Nat} {s t u : State}

theorem FlowFrame.refl (s : State) : FlowFrame tag s s := ⟨OpFrame.refl s, SegFrame.refl _⟩

theorem FlowFrame.trans (h : FlowFrame tag s t) (g : FlowFrame tag t u) : FlowFrame tag s u :=
  ⟨h.op.trans g.op, h.seg.trans g.seg⟩

theorem FullFrame.toFlow (h : FullFrame tag s t) : FlowFrame tag s t := ⟨h.op, h.toSeg⟩

theorem FlowFrame.then (h : FlowFrame tag s t) (g : FullFrame tag t u) : FlowFrame tag s u :=
  h.trans g.toFlow

theorem FlowFrame.updSeg (m : Nat) (f : Meter → Segment) (h : FlowFrame tag s t) :
    FlowFrame tag s (t.setLin (t.lin.updMeter m (fun x => { x with seg := f x }))) :=
  h.trans ⟨OpFrame.setLin _ rfl rfl rfl, SegFrame.updMeter _ _ _⟩

theorem FlowFrame.ite {c : Prop} [Decidable c] (h : FlowFrame tag s t) (g : FlowFrame tag s u) :
    FlowFrame tag s (if c then t else u) := by
  split
  · exact h
  · exact g

theorem FlowFrame.openSegment (m : Nat) (h : FlowFrame tag s t) : FlowFrame tag s (t.openSegment m) :=
  h.updSeg m (fun _ => { start := t.now })

theorem FlowFrame.closeSegment (m : Nat) (r : SegReason) (h : FlowFrame tag s t) :
    FlowFrame tag s (t.closeSegment m r tag) :=
  FlowFrame.ite h (h.then ((FullFrame.refl t).write _))

theorem FlowFrame.countSegment (m v : Nat) (h : FlowFrame tag s t) :
    FlowFrame tag s (t.countSegment m v tag) := by
  unfold State.countSegment
  dsimp only
  exact FlowFrame.updSeg m _ (FlowFrame.ite ((h.closeSegment m .limit).openSegment m) h)

theorem FlowFrame.flagSegment (m : Nat) (f : SegFlags → SegFlags) (h : FlowFrame tag s t) :
    FlowFrame tag s (t.flagSegment m f) :=
  h.updSeg m (fun x => { x.seg with flags := f x.seg.flags })

theorem FlowFrame.setUncertain (v : Nat) (h : FlowFrame tag s t) :
    FlowFrame tag s (t.setUncertain v) := h.then ((FullFrame.refl t).setUncertain v)

theorem FlowFrame.raise (f : Option Nat) (c : CondVals) (h : FlowFrame tag s t) :
    FlowFrame tag s (t.raise tag f c) := h.then ((FullFrame.refl t).raise f c)

theorem FlowFrame.flowUnrouted (m v : Nat) (h : FlowFrame tag s t) :
    FlowFrame tag s (t.flowUnrouted m v tag) := by
  unfold State.flowUnrouted
  dsimp only
  exact ((h.flagSegment m _).then ((FullFrame.refl _).setLin
    ((LinFrame.refl _).setUncertainAll _))).raise _ _

theorem FlowFrame.flowCleaning (m a b v : Nat) (h : FlowFrame tag s t) :
    FlowFrame tag s (t.flowCleaning m a b v tag) := by
  unfold State.flowCleaning
  dsimp only
  exact (FlowFrame.ite (h.flagSegment m _) ((h.flagSegment m _).setUncertain _)).raise _ _

theorem FlowFrame.flowCap (m a b v : Nat) (h : FlowFrame tag s t) :
    FlowFrame tag s (t.flowCap m a b v tag) :=
  FlowFrame.ite ((((h.flagSegment m _).setUncertain _).setUncertain _).raise _ _) h

theorem FlowFrame.flowRouted (m a b v : Nat) (d : Bool) (h : FlowFrame tag s t) :
    FlowFrame tag s (t.flowRouted m a b v tag d) := by
  unfold State.flowRouted
  dsimp only
  exact (h.flowCap m a b v).then ((FullFrame.refl _).transfer _ _ _ _)

theorem FlowFrame.flowJump (m v : Nat) (c : FlowCase) (h : FlowFrame tag s t) :
    FlowFrame tag s (t.flowJump m v tag c) := by
  unfold State.flowJump
  dsimp only
  split
  · exact ((h.setUncertain _).setUncertain _).raise _ _
  · exact h.raise _ _
  · exact h.raise _ _
  · exact h.raise _ _

theorem FlowFrame.flowByCase (m v : Nat) (j : Bool) (c : FlowCase) (h : FlowFrame tag s t) :
    FlowFrame tag s (t.flowByCase m v tag j c) := by
  cases c with
  | unrouted => exact h.flowUnrouted m v
  | loop => exact h.flagSegment m (fun f => { f with sameVessel := true })
  | cleaning a b => exact h.flowCleaning m a b v
  | routed a b => exact h.flowRouted m a b v j

theorem FlowFrame.flagJump (m : Nat) (j : Bool) (h : FlowFrame tag s t) :
    FlowFrame tag s (t.flagJump m j) := FlowFrame.ite (h.flagSegment m _) h

theorem FlowFrame.flow (m v : Nat) (h : FlowFrame tag s t) : FlowFrame tag s (t.flow m v tag) := by
  unfold State.flow
  dsimp only
  exact (((FlowFrame.ite (h.flowJump m v _) h).countSegment m v).flagJump m _).flowByCase m v _ _

end flow

/-- A meter's new state after a reading, before its volume is handed on. -/
def Reading.meter : Reading → Meter
  | .first m => m
  | .backward m _ _ => m
  | .forward m _ => m

/-- A METER entry leaves the frame of flow behind the new meter record. -/
theorem State.opMeter_frame (s : State) (tag m t : Nat) :
    FlowFrame tag (if (s.lin.meter m).configured then
      s.setLin (s.lin.setMeter m (readMeterTotal (s.lin.meter m) t).meter) else s)
      (s.opMeter tag m t) := by
  unfold State.opMeter
  dsimp only
  by_cases h : (s.lin.meter m).configured = true
  · rw [if_pos h, if_neg (by simp [h])]
    cases readMeterTotal (s.lin.meter m) t with
    | first y => exact FlowFrame.refl _
    | backward y a b => exact (FlowFrame.refl _).raise _ _
    | forward y v => exact FlowFrame.ite (FlowFrame.refl _) ((FlowFrame.refl _).flow m v)
  · have h' : (s.lin.meter m).configured = false := by simpa using h
    rw [if_neg h, if_pos (by simp [h'])]
    exact FlowFrame.refl _

theorem State.opMeter_op (s : State) (tag m t : Nat) : OpFrame tag s (s.opMeter tag m t) := by
  refine OpFrame.trans ?_ (s.opMeter_frame tag m t).op
  split
  · exact OpFrame.setLin _ rfl rfl rfl
  · exact OpFrame.refl s

theorem State.resolveMeter_op (s : State) (tag m : Nat) : OpFrame tag s (s.resolveMeter tag m) := by
  unfold State.resolveMeter
  dsimp only
  split
  · exact OpFrame.setLin _ rfl rfl rfl
  · refine OpFrame.trans ?_ ((FlowFrame.refl _).openSegment m).op
    refine OpFrame.trans ((FlowFrame.refl s).closeSegment m .route).op ?_
    exact OpFrame.setLin _ rfl rfl rfl

theorem State.opValve_op (s : State) (tag c : Nat) (v : Word16) : OpFrame tag s (s.opValve tag c v) := by
  unfold State.opValve
  dsimp only
  refine OpFrame.trans ?_ (OpFrame.foldl _ (fun s m => s.resolveMeter_op tag m) _ _)
  exact OpFrame.setLin _ rfl rfl rfl

theorem Lineage.resolveAll_keeps (l : Lineage) :
    l.resolveAll.catTab = l.catTab ∧ l.resolveAll.bankA = l.bankA ∧ l.resolveAll.bankB = l.bankB ∧
    l.resolveAll.clusters = l.clusters ∧ l.resolveAll.active = l.active := by
  have h : ∀ (is : List Nat) (k : Lineage),
      let r := is.foldl (fun acc m => acc.updMeter m (fun x => { x with route := l.resolve m })) k
      r.catTab = k.catTab ∧ r.bankA = k.bankA ∧ r.bankB = k.bankB ∧ r.clusters = k.clusters ∧
      r.active = k.active := by
    intro is
    induction is with
    | nil => intro k; exact ⟨rfl, rfl, rfl, rfl, rfl⟩
    | cons i is ih => intro k; exact ih _
  exact h _ l

theorem Lineage.openAll_keeps (l : Lineage) (t : TimeStamp) : SegFrame l (l.openAll t) ∧
    (l.openAll t).catTab = l.catTab := by
  have h : ∀ (is : List Nat) (k : Lineage), SegFrame k (is.foldl
      (fun acc m => acc.updMeter m (fun x => { x with seg := { start := t } })) k) ∧
      (is.foldl (fun acc m => acc.updMeter m (fun x => { x with seg := { start := t } })) k).catTab =
        k.catTab := by
    intro is
    induction is with
    | nil => exact fun k => ⟨SegFrame.refl k, rfl⟩
    | cons i is ih =>
      intro k
      obtain ⟨h1, h2⟩ := ih (k.updMeter i (fun x => { x with seg := { start := t } }))
      exact ⟨(SegFrame.updMeter k i (fun _ => { start := t })).trans h1, h2⟩
  exact h _ l

theorem State.opSwitchBank_op (s : State) (tag : Nat) : OpFrame tag s (s.opSwitchBank tag) := by
  unfold State.opSwitchBank
  dsimp only
  have h1 : OpFrame tag s ((List.range 48).foldl (fun acc m => acc.closeSegment m .switch tag) s) :=
    OpFrame.foldl _ (fun s m => ((FlowFrame.refl s).closeSegment m .switch).op) _ s
  generalize (List.range 48).foldl (fun acc m => acc.closeSegment m .switch tag) s = u at h1
  refine h1.trans (OpFrame.trans ?_ (OpFrame.write _ _))
  have h2 := Lineage.resolveAll_keeps { u.lin with active := u.lin.active.other }
  have h3 := Lineage.openAll_keeps (Lineage.resolveAll { u.lin with active := u.lin.active.other }) u.now
  exact OpFrame.setLin _ (h3.2.trans h2.1) (h3.1.bankA.trans h2.2.1) (h3.1.bankB.trans h2.2.2.1)

/-- Every operation keeps the frame of engine operations. -/
theorem TakenEntry.operation_frame (e : TakenEntry) (s : State) : OpFrame e.tag s (e.operation s).st := by
  obtain ⟨⟨v, a, t, c⟩, w⟩ := e
  cases v with
  | meter m n => exact s.opMeter_op t m n
  | valve k x => exact s.opValve_op t k x
  | manifest i => exact (s.opManifest_frame t w i).op
  | compSelect b x k => exact (s.opCompSelect_frame t b x k).op
  | compDone b => exact (s.opCompDone_frame t b).op
  | compReject b x k => exact (s.opCompReject_frame t b x k).op
  | cipStart v => exact (s.opCipStart_frame t v).op
  | cipEnd v => exact (s.opCipEnd_frame t v).op
  | batchOpen f p k => exact (s.opBatchOpen_frame t c f p k).op
  | batchClose f => exact (s.opBatchClose_frame t f).op
  | carton f n => exact (s.opCarton_frame t f n).op
  | dispatch k n x => exact (s.opDispatch_frame t k n x).op
  | idleClose f n x => exact (s.opIdleClose_frame t f n x).op
  | gap n => exact (s.opGap_frame t n).op
  | switchBank =>
    have h := s.opSwitchBank_op t
    unfold TakenEntry.operation
    dsimp only
    exact h
  | vesselWrite w => exact (s.opVesselWrite_frame t w).op
  | manualTransfer x y v => exact (s.opManual_frame t x y v).op
  | suspectKey k => exact (s.opMark_frame t false (.key k)).op
  | suspectSample n => exact (s.opMark_frame t false (.sample n)).op
  | suspectFarm n => exact (s.opMark_frame t false (.farm n)).op
  | releaseKey k => exact (s.opMark_frame t true (.key k)).op
  | releaseSample n => exact (s.opMark_frame t true (.sample n)).op
  | releaseFarm n => exact (s.opMark_frame t true (.farm n)).op
  | holdRelease a => exact (s.opHoldRelease_frame t a).op

/-- The row of the entry in flight answers a next state that is the result of its operation. -/
theorem exec_row_result {s : State} {e : TakenEntry} (h : Taken s e) :
    ∃ t ps, exec e.val.row s = .next t ∧
      OpResult s t e.tag (e.operation s).st.lin (e.operation s).st.hold ps (e.operation s).after
        (e.operation s).released := by
  obtain ⟨ps, hp⟩ := (e.operation s).finish_spec (e.operation_frame s)
  exact ⟨_, ps, exec_row h, hp⟩

/-- The same with the records named. -/
theorem exec_row_writes {s : State} {e : TakenEntry} (h : Taken s e) (ps : List Payload)
    (hj : (e.operation s).st.jrn = s.jrn.writeAll s.now e.tag ps) :
    ∃ t, exec e.val.row s = .next t ∧
      OpResult s t e.tag (e.operation s).st.lin (e.operation s).st.hold ps (e.operation s).after
        (e.operation s).released :=
  ⟨_, exec_row h, (e.operation s).finish_result (e.operation_frame s) ps hj⟩

end Sys2Proof.Machine
end

