-- ==== Sys2Proof/Laws/Lists.lean ====
section
/-! SUPPORT. Share lists: what the merge of a portion list and the portion list of a draw come to, once
each. -/

namespace Sys2Proof.Machine

open Sys2Proof

theorem keysOf_addAt (l : List Share) (k : Key) (n : Nat) :
    keysOf (l.map (fun x => if x.key == k then { x with vol := x.vol + n } else x)) = keysOf l := by
  simp only [keysOf, List.map_map]
  exact List.map_congr_left fun x _ => by simp only [Function.comp]; split <;> rfl

theorem hasKey_iff (l : List Share) (k : Key) : hasKey l k = true ↔ k ∈ keysOf l := by
  simp [hasKey, keysOf]

theorem sumAt_of_notMem {ps : List Share} {k : Key} (h : k ∉ keysOf ps) :
    ps.filter (fun p => p.key = k) = [] := by
  refine List.filter_eq_nil_iff.2 fun p hp => ?_
  have : p.key ∈ keysOf ps := List.mem_map_of_mem hp
  simp only [decide_eq_true_eq]
  rintro rfl
  exact h this

/-- The merge of portions that carry no key twice (R33). -/
theorem mergeInto_eq_joined (ps : List Share) :
    ∀ l, (keysOf ps).Nodup → mergeInto l ps = joined l ps := by
  induction ps with
  | nil => intro l _; simp [mergeInto, joined]
  | cons p ps ih =>
    intro l h
    have hp : p.key ∉ keysOf ps := (List.nodup_cons.1 h).1
    have ht : (keysOf ps).Nodup := (List.nodup_cons.1 h).2
    change mergeInto (addPortion l p) ps = _
    rw [ih _ ht]
    unfold addPortion
    by_cases hk : p.key ∈ keysOf l
    · rw [if_pos ((hasKey_iff l p.key).2 hk)]
      unfold joined
      rw [keysOf_addAt]
      congr 1
      · rw [List.map_map]
        refine List.map_congr_left fun y _ => ?_
        simp only [Function.comp]
        by_cases hy : y.key = p.key
        · simp [hy, sumAt_of_notMem hp]
        · have : ¬ p.key = y.key := fun e => hy e.symm
          simp [hy, this]
      · simp [hk]
    · rw [if_neg (fun e => hk ((hasKey_iff l p.key).1 e))]
      unfold joined
      have e1 : List.filter (fun q => decide (q.key ∉ keysOf (l ++ [p]))) ps =
          List.filter (fun q => decide (q.key ∉ keysOf l)) ps := by
        refine List.filter_congr fun q hq => ?_
        have : q.key ≠ p.key := fun e => hp (e ▸ List.mem_map_of_mem hq)
        simp [keysOf, this]
      rw [e1]
      simp only [List.map_append, List.map_cons, List.map_nil, List.append_assoc]
      congr 1
      · refine List.map_congr_left fun y hy => ?_
        have : ¬ p.key = y.key := fun e => hk (e ▸ List.mem_map_of_mem hy)
        simp [this]
      · simp [hk, sumAt_of_notMem hp]

/-- The portion list of a draw as R28 describes it. -/
theorem unknownLast_eq_placed (l : List Share) (extra : Nat) (h : ∀ y ∈ l, y.vol ≠ 0) :
    unknownLast l extra = placed l extra := by
  have e : l.filter (fun y => decide (y.key ≠ .unknown ∧ y.vol ≠ 0)) =
      l.filter (fun y => y.key != .unknown) :=
    List.filter_congr fun y hy => by simp [h y hy, bne, beq_eq_decide]
  simp only [unknownLast, placed, volumeOf, total, e, beq_eq_decide, decide_eq_true_eq]
  split <;> simp

/-- Below the ceiling the portions are merged whole (R34). -/
theorem ceilingCut_fits (content : Nat) (ps : List Share) (h : content + total ps ≤ Config.contentCeiling) :
    ceilingCut content ps = (ps, 0) := if_pos h

end Sys2Proof.Machine
end

