-- ==== Sys2Proof/Laws/Manage.lean ====
section
/-! SUPPORT. Command frames: the row of a command, a command that passes the checks, and its answer. -/

namespace Sys2Proof.Machine

open Sys2Proof

section setPort

variable (s : State) (p : Port) (x y : PortState)

@[simp] theorem State.setPort_setPort : (s.setPort p x).setPort p y = s.setPort p y := by
  cases p <;> rfl

@[simp] theorem State.setPort_port : s.setPort p (s.port p) = s := by cases p <;> rfl

theorem State.setLin_setPort (l : Lineage) : (s.setPort p x).setLin l = (s.setLin l).setPort p x := by
  cases p <;> rfl
theorem State.setHold_setPort (h : HoldUnit) : (s.setPort p x).setHold h = (s.setHold h).setPort p x := by
  cases p <;> rfl
theorem State.setJrn_setPort (j : Journal) : (s.setPort p x).setJrn j = (s.setJrn j).setPort p x := by
  cases p <;> rfl
theorem State.setMgmt_setPort (m : Mgmt) : (s.setPort p x).setMgmt m = (s.setMgmt m).setPort p x := by
  cases p <;> rfl
theorem State.setDec_setPort (d : Decoder) : (s.setPort p x).setDec d = (s.setDec d).setPort p x := by
  cases p <;> rfl
theorem State.setEvq_setPort (q : List Entry) : (s.setPort p x).setEvq q = (s.setEvq q).setPort p x := by
  cases p <;> rfl
theorem State.setInFlight_setPort (e : Option TakenEntry) : (s.setPort p x).setInFlight e = (s.setInFlight e).setPort p x := by
  cases p <;> rfl
theorem State.setWaiting_setPort (w : List Waiting) : (s.setPort p x).setWaiting w = (s.setWaiting w).setPort p x := by
  cases p <;> rfl

end setPort

/-- A command row answers a next state: its frame's acceptance. -/
theorem exec_command {i : Instr} {h : CmdHdr} {c : Command} (s : State)
    (hc : commandOf i = some (h, c)) : exec i s = .next (s.command h c) := by
  cases i <;> simp only [commandOf, Option.some.injEq, Prod.mk.injEq, reduceCtorEq] at hc <;>
    (obtain ⟨rfl, rfl⟩ := hc; rfl)

/-- A command that passes the checks is handed on with its reply's place reserved. -/
theorem State.command_passes {s : State} {h : CmdHdr} {c : Command} (p : Passes s h c) :
    s.command h c = (s.reserve h.port).handOn h c := by
  have hp : (s.reserve h.port).mgmt.permits h.source = true := by
    simpa [State.reserve] using p.permits
  simp [State.command, p.receives, State.accept, p.version, p.room, p.form, State.checkReserved, hp]

/-- A place that is free, once reserved and answered, holds the reply. -/
theorem State.answer_reserved {t : State} {p : Port} {x : PortState} (r : Reply)
    (h : t.port p = { x with reservations := x.reservations + 1 }) (link : x.linkUp = true) :
    t.answer p false r = t.setPort p (x.answered r) := by
  simp [State.answer, h, link, PortState.answered]

/-- The port of a command that passes has its link up. -/
theorem Passes.linkUp {s : State} {h : CmdHdr} {c : Command} (p : Passes s h c) :
    (s.port h.port).linkUp = true := by
  have := p.receives
  simp [State.receives] at this
  exact this.2

/-- A port after a reservation. -/
theorem State.reserve_port (s : State) (p : Port) :
    (s.reserve p).port p = { s.port p with reservations := (s.port p).reservations + 1 } := by
  simp [State.reserve]

/-- The engine with nothing in flight and nothing waiting is not busy, reservations or not. -/
theorem State.busy_reserve (s : State) (p : Port) : (s.reserve p).busy = s.busy := by
  simp [State.reserve, State.busy]

end Sys2Proof.Machine
end

