-- ==== Sys2Proof/WellFormed.lean ====
section
/-! DEFINITION. The well-formed commands: every number fits the field that carries it on the wire
(section 12.1, R183, R185). A value that fits its field and that a rule refuses is well-formed:
the refusal is the command's meaning. -/

namespace Sys2Proof

/-- A header whose numbers fit their fields (R183). -/
def CmdHdr.wf (h : CmdHdr) : Bool :=
  h.source < 2 ^ 48 && h.version < 256 && h.tag < 65536 && h.argLen < 65536

/-- A key element: four bits of kind, 28 of serial (section 12.1). -/
def RawKey.wf (k : RawKey) : Bool := k.kind < 16 && k.serial < 2 ^ 28

/-- A Match Table entry whose numbers fit and which has the fields of its class (R150, R151). -/
def MatchEntry.wf (e : MatchEntry) : Bool :=
  e.base < 65536 && e.limit < 65536 && e.kind < 256 && e.objBase < 256 && e.count < 256 &&
  e.stride < 65536 && e.fields.length == e.cls.widths.length &&
  e.fields.all (fun f => f.off < 65536 && f.width < 256)

/-- Telegram Filter settings that fit (R149). -/
def TelegramFilter.wf (f : TelegramFilter) : Bool :=
  f.etherType < 65536 && f.stationOff < 65536 && f.stationWidth < 256 && f.kindOff < 65536

/-- Vessel configuration fields that fit (R2). -/
def VesselCfg.wf : VesselCfg → Bool
  | .unconfigured => true
  | .store c => c < 2 ^ 32
  | .bay i t => i < 256 && t < 256
  | .filler i n c p t a => i < 256 && n < 256 && c < 2 ^ 48 && p < 256 && t < 65536 && a < 65536
  | .unknown k => 4 ≤ k && k < 256

/-- Route fields that fit (R81). -/
def RouteArgs.wf (r : RouteArgs) : Bool :=
  r.bank < 256 && r.index < 256 && r.valid < 256 && r.meter < 256 && r.src < 256 && r.dst < 256 && r.count < 256 &&
  r.c1.cluster < 256 && r.c2.cluster < 256

/-- LOAD_POLICY values that fit. -/
def PolicyArgs.wf : PolicyArgs → Bool
  | .cond r p t => r < 256 && p < 256 && t < 256
  | .content c e => c < 3 && e < 256

/-- VESSEL_WRITE values that fit; the count byte bounds the list (R183). -/
def WriteArgs.wf (w : WriteArgs) : Bool :=
  w.vessel < 256 && w.cat < 256 && w.uncertain < 256 && w.entries.length < 256 &&
  w.entries.all (fun e => e.key.wf && e.cat < 256 && e.vol < 2 ^ 32)

/-- The well-formed commands. -/
def Instr.wf : Instr → Bool
  | .powerOnReset => true
  | .resetRelease _ => true
  | .linkUp _ => true
  | .linkDown _ => true
  | .frameReceive _ _ bytes => 18 ≤ bytes.length
  | .frameTransmit _ => true
  | .idleTimerExpiry f => f < 8
  | .clockDayRollover => true
  | .status h => h.wf
  | .loadMatch h i e => h.wf && i < 256 && e.wf
  | .loadFilter h f => h.wf && f.wf
  | .loadOverride h i o => h.wf && i < 256 && o.cluster < 256
  | .loadVessel h i c => h.wf && i < 256 && c.wf
  | .loadMeter h i w n d j => h.wf && i < 256 && w < 256 && n < 65536 && d < 65536 && j < 2 ^ 32
  | .loadRoute h r => h.wf && r.wf
  | .loadCategory h cells => h.wf && cells.length == 64 && cells.all (· < 256)
  | .loadPolicy h p => h.wf && p.wf
  | .loadOutput h a b c d => h.wf && a < 256 && b < 256 && c < 256 && d < 256
  | .setManagers h a b => h.wf && a < 2 ^ 48 && b < 2 ^ 48
  | .setPlant h n => h.wf && n < 65536
  | .setSerials h a b c => h.wf && a < 2 ^ 32 && b < 2 ^ 32 && c < 2 ^ 32
  | .setClock h d s c => h.wf && d < 2 ^ 32 && s < 2 ^ 32 && c < 256
  | .readVessel h i => h.wf && i < 256
  | .readKey h k => h.wf && k.wf
  | .readBatch h f p => h.wf && f < 256 && p < 256
  | .readBay h i => h.wf && i < 256
  | .readMeter h i => h.wf && i < 256
  | .journalFetch h _ => h.wf
  | .journalRelease h _ => h.wf
  | .clearEngine h => h.wf
  | .applyClearEngine => true
  | .deferredDirectCommands => true
  | .switchBank h => h.wf
  | .vesselWrite h w => h.wf && w.wf
  | .manualTransfer h s d v => h.wf && s < 256 && d < 256 && v < 2 ^ 32
  | .cipStart h v => h.wf && v < 256
  | .cipEnd h v => h.wf && v < 256
  | .batchOpen h f p c => h.wf && f < 256 && p < 65536 && c < 256
  | .batchClose h f => h.wf && f < 256
  | .suspectKey h k => h.wf && k.wf
  | .suspectSample h n => h.wf && n < 2 ^ 32
  | .suspectFarm h n => h.wf && n < 2 ^ 32
  | .releaseKey h k => h.wf && k.wf
  | .releaseSample h n => h.wf && n < 2 ^ 32
  | .releaseFarm h n => h.wf && n < 2 ^ 32
  | .holdRelease h a => h.wf && a < 256
  | .meterEntry => true
  | .valveEntry => true
  | .manifestEntry => true
  | .compSelectEntry => true
  | .compDoneEntry => true
  | .compRejectEntry => true
  | .cipStartEntry => true
  | .cipEndEntry => true
  | .batchOpenEntry => true
  | .batchCloseEntry => true
  | .cartonEntry => true
  | .dispatchEntry => true
  | .idleCloseEntry => true
  | .gapEntry => true
  | .switchBankEntry => true
  | .vesselWriteEntry => true
  | .manualTransferEntry => true
  | .suspectKeyEntry => true
  | .suspectSampleEntry => true
  | .suspectFarmEntry => true
  | .releaseKeyEntry => true
  | .releaseSampleEntry => true
  | .releaseFarmEntry => true
  | .holdReleaseEntry => true
  | .plantClockAdvance => true

end Sys2Proof
end

