-- ==== Sys2Proof/Laws/PerInstr.lean ====
section
/-! SUPPORT. One statement per command row: a well-formed row that stands for a command frame carries a
header whose numbers fit their fields (R183). -/

namespace Sys2Proof.Laws.Wire

open Sys2Proof Sys2Proof.Machine

/-- A well-formed row that stands for a command frame carries a well-formed header. -/
def Statement (i : Instr) : Prop :=
  i.wf = true → ∀ x, commandOf i = some x → x.1.wf = true

/-- A row that stands for no command frame satisfies the statement. -/
theorem of_none {i : Instr} (h : commandOf i = none) : Statement i := fun _ x hx => by
  rw [h] at hx
  cases hx

/-- A row whose header is checked satisfies the statement. -/
theorem of_header {i : Instr} {x : CmdHdr × Command} (h : commandOf i = some x)
    (hw : i.wf = true → x.1.wf = true) : Statement i := fun w y hy => by
  rw [h] at hy
  cases hy
  exact hw w

theorem powerOnReset : Statement (.powerOnReset) := of_none rfl
theorem resetRelease (strap : BitVec 6) : Statement (.resetRelease strap) := of_none rfl
theorem linkUp (p : Port) : Statement (.linkUp p) := of_none rfl
theorem linkDown (p : Port) : Statement (.linkDown p) := of_none rfl
theorem frameReceive (p : Port) (fcsGood : Bool) (bytes : Frame) : Statement (.frameReceive p fcsGood bytes) := of_none rfl
theorem frameTransmit (p : Port) : Statement (.frameTransmit p) := of_none rfl
theorem idleTimerExpiry (filler : Nat) : Statement (.idleTimerExpiry filler) := of_none rfl
theorem clockDayRollover : Statement (.clockDayRollover) := of_none rfl
theorem status (h : CmdHdr) :
    Statement (.status h) :=
  of_header rfl (fun w => by simp_all [Instr.wf])
theorem loadMatch (h : CmdHdr) (index : Nat) (e : MatchEntry) :
    Statement (.loadMatch h index e) :=
  of_header rfl (fun w => by simp_all [Instr.wf])
theorem loadFilter (h : CmdHdr) (f : TelegramFilter) :
    Statement (.loadFilter h f) :=
  of_header rfl (fun w => by simp_all [Instr.wf])
theorem loadOverride (h : CmdHdr) (slot : Nat) (o : Override) :
    Statement (.loadOverride h slot o) :=
  of_header rfl (fun w => by simp_all [Instr.wf])
theorem loadVessel (h : CmdHdr) (index : Nat) (cfg : VesselCfg) :
    Statement (.loadVessel h index cfg) :=
  of_header rfl (fun w => by simp_all [Instr.wf])
theorem loadMeter (h : CmdHdr) (index width num den jump : Nat) :
    Statement (.loadMeter h index width num den jump) :=
  of_header rfl (fun w => by simp_all [Instr.wf])
theorem loadRoute (h : CmdHdr) (r : RouteArgs) :
    Statement (.loadRoute h r) :=
  of_header rfl (fun w => by simp_all [Instr.wf])
theorem loadCategory (h : CmdHdr) (cells : List Nat) :
    Statement (.loadCategory h cells) :=
  of_header rfl (fun w => by simp_all [Instr.wf])
theorem loadPolicy (h : CmdHdr) (p : PolicyArgs) :
    Statement (.loadPolicy h p) :=
  of_header rfl (fun w => by simp_all [Instr.wf])
theorem loadOutput (h : CmdHdr) (pin source filler polarity : Nat) :
    Statement (.loadOutput h pin source filler polarity) :=
  of_header rfl (fun w => by simp_all [Instr.wf])
theorem setManagers (h : CmdHdr) (first second : Nat) :
    Statement (.setManagers h first second) :=
  of_header rfl (fun w => by simp_all [Instr.wf])
theorem setPlant (h : CmdHdr) (plant : Nat) :
    Statement (.setPlant h plant) :=
  of_header rfl (fun w => by simp_all [Instr.wf])
theorem setSerials (h : CmdHdr) (coll blend batch : Nat) :
    Statement (.setSerials h coll blend batch) :=
  of_header rfl (fun w => by simp_all [Instr.wf])
theorem setClock (h : CmdHdr) (day sec hund : Nat) :
    Statement (.setClock h day sec hund) :=
  of_header rfl (fun w => by simp_all [Instr.wf])
theorem readVessel (h : CmdHdr) (index : Nat) :
    Statement (.readVessel h index) :=
  of_header rfl (fun w => by simp_all [Instr.wf])
theorem readKey (h : CmdHdr) (key : RawKey) :
    Statement (.readKey h key) :=
  of_header rfl (fun w => by simp_all [Instr.wf])
theorem readBatch (h : CmdHdr) (filler position : Nat) :
    Statement (.readBatch h filler position) :=
  of_header rfl (fun w => by simp_all [Instr.wf])
theorem readBay (h : CmdHdr) (index : Nat) :
    Statement (.readBay h index) :=
  of_header rfl (fun w => by simp_all [Instr.wf])
theorem readMeter (h : CmdHdr) (index : Nat) :
    Statement (.readMeter h index) :=
  of_header rfl (fun w => by simp_all [Instr.wf])
theorem journalFetch (h : CmdHdr) (start : Seq) :
    Statement (.journalFetch h start) :=
  of_header rfl (fun w => by simp_all [Instr.wf])
theorem journalRelease (h : CmdHdr) (newest : Seq) :
    Statement (.journalRelease h newest) :=
  of_header rfl (fun w => by simp_all [Instr.wf])
theorem clearEngine (h : CmdHdr) :
    Statement (.clearEngine h) :=
  of_header rfl (fun w => by simp_all [Instr.wf])
theorem applyClearEngine : Statement (.applyClearEngine) := of_none rfl
theorem deferredDirectCommands : Statement (.deferredDirectCommands) := of_none rfl
theorem switchBank (h : CmdHdr) :
    Statement (.switchBank h) :=
  of_header rfl (fun w => by simp_all [Instr.wf])
theorem vesselWrite (h : CmdHdr) (w : WriteArgs) :
    Statement (.vesselWrite h w) :=
  of_header rfl (fun w => by simp_all [Instr.wf])
theorem manualTransfer (h : CmdHdr) (src dst vol : Nat) :
    Statement (.manualTransfer h src dst vol) :=
  of_header rfl (fun w => by simp_all [Instr.wf])
theorem cipStart (h : CmdHdr) (vessel : Nat) :
    Statement (.cipStart h vessel) :=
  of_header rfl (fun w => by simp_all [Instr.wf])
theorem cipEnd (h : CmdHdr) (vessel : Nat) :
    Statement (.cipEnd h vessel) :=
  of_header rfl (fun w => by simp_all [Instr.wf])
theorem batchOpen (h : CmdHdr) (filler product cat : Nat) :
    Statement (.batchOpen h filler product cat) :=
  of_header rfl (fun w => by simp_all [Instr.wf])
theorem batchClose (h : CmdHdr) (filler : Nat) :
    Statement (.batchClose h filler) :=
  of_header rfl (fun w => by simp_all [Instr.wf])
theorem suspectKey (h : CmdHdr) (key : RawKey) :
    Statement (.suspectKey h key) :=
  of_header rfl (fun w => by simp_all [Instr.wf])
theorem suspectSample (h : CmdHdr) (sample : Nat) :
    Statement (.suspectSample h sample) :=
  of_header rfl (fun w => by simp_all [Instr.wf])
theorem suspectFarm (h : CmdHdr) (farm : Nat) :
    Statement (.suspectFarm h farm) :=
  of_header rfl (fun w => by simp_all [Instr.wf])
theorem releaseKey (h : CmdHdr) (key : RawKey) :
    Statement (.releaseKey h key) :=
  of_header rfl (fun w => by simp_all [Instr.wf])
theorem releaseSample (h : CmdHdr) (sample : Nat) :
    Statement (.releaseSample h sample) :=
  of_header rfl (fun w => by simp_all [Instr.wf])
theorem releaseFarm (h : CmdHdr) (farm : Nat) :
    Statement (.releaseFarm h farm) :=
  of_header rfl (fun w => by simp_all [Instr.wf])
theorem holdRelease (h : CmdHdr) (arg : Nat) :
    Statement (.holdRelease h arg) :=
  of_header rfl (fun w => by simp_all [Instr.wf])
theorem meterEntry : Statement (.meterEntry) := of_none rfl
theorem valveEntry : Statement (.valveEntry) := of_none rfl
theorem manifestEntry : Statement (.manifestEntry) := of_none rfl
theorem compSelectEntry : Statement (.compSelectEntry) := of_none rfl
theorem compDoneEntry : Statement (.compDoneEntry) := of_none rfl
theorem compRejectEntry : Statement (.compRejectEntry) := of_none rfl
theorem cipStartEntry : Statement (.cipStartEntry) := of_none rfl
theorem cipEndEntry : Statement (.cipEndEntry) := of_none rfl
theorem batchOpenEntry : Statement (.batchOpenEntry) := of_none rfl
theorem batchCloseEntry : Statement (.batchCloseEntry) := of_none rfl
theorem cartonEntry : Statement (.cartonEntry) := of_none rfl
theorem dispatchEntry : Statement (.dispatchEntry) := of_none rfl
theorem idleCloseEntry : Statement (.idleCloseEntry) := of_none rfl
theorem gapEntry : Statement (.gapEntry) := of_none rfl
theorem switchBankEntry : Statement (.switchBankEntry) := of_none rfl
theorem vesselWriteEntry : Statement (.vesselWriteEntry) := of_none rfl
theorem manualTransferEntry : Statement (.manualTransferEntry) := of_none rfl
theorem suspectKeyEntry : Statement (.suspectKeyEntry) := of_none rfl
theorem suspectSampleEntry : Statement (.suspectSampleEntry) := of_none rfl
theorem suspectFarmEntry : Statement (.suspectFarmEntry) := of_none rfl
theorem releaseKeyEntry : Statement (.releaseKeyEntry) := of_none rfl
theorem releaseSampleEntry : Statement (.releaseSampleEntry) := of_none rfl
theorem releaseFarmEntry : Statement (.releaseFarmEntry) := of_none rfl
theorem holdReleaseEntry : Statement (.holdReleaseEntry) := of_none rfl
theorem plantClockAdvance : Statement (.plantClockAdvance) := of_none rfl

end Sys2Proof.Laws.Wire
end

