-- ==== Sys2Proof/Laws/Records.lean ====
section
/-! SUPPORT. The record tables: creating, counting and releasing touch the Collection and Blend Tables
alone, and depend on nothing else of the lineage state. -/

namespace Sys2Proof.Machine

open Sys2Proof

/-- A lineage state with the two record tables of another. -/
def Lineage.withRecords (m l : Lineage) : Lineage := { m with colls := l.colls, blends := l.blends }

section records

variable (m l : Lineage)

@[simp] theorem Lineage.withRecords_colls : (m.withRecords l).colls = l.colls := rfl
@[simp] theorem Lineage.withRecords_blends : (m.withRecords l).blends = l.blends := rfl
@[simp] theorem Lineage.withRecords_vessels : (m.withRecords l).vessels = m.vessels := rfl
@[simp] theorem Lineage.withRecords_rings : (m.withRecords l).rings = m.rings := rfl
@[simp] theorem Lineage.withRecords_fillers : (m.withRecords l).fillers = m.fillers := rfl
@[simp] theorem Lineage.withRecords_vessel (v : Nat) : (m.withRecords l).vessel v = m.vessel v := rfl
@[simp] theorem Lineage.withRecords_ring (b : Nat) : (m.withRecords l).ring b = m.ring b := rfl
@[simp] theorem Lineage.withRecords_filler (f : Nat) : (m.withRecords l).filler f = m.filler f := rfl
@[simp] theorem Lineage.withRecords_self : l.withRecords l = l := rfl

/-- A release acts on the two record tables only. -/
theorem Lineage.releaseKey_withRecords (fuel : Nat) (x : Key) :
    Lineage.releaseKey fuel x (m.withRecords l) = m.withRecords (Lineage.releaseKey fuel x l) := by
  induction fuel generalizing x l with
  | zero => rfl
  | succ n ih =>
    have fold : ∀ (ks : List Key) (l : Lineage),
        ks.foldl (fun acc k => Lineage.releaseKey n k acc) (m.withRecords l) =
          m.withRecords (ks.foldl (fun acc k => Lineage.releaseKey n k acc) l) := by
      intro ks
      induction ks with
      | nil => intro l; rfl
      | cons k ks h => intro l; rw [List.foldl_cons, List.foldl_cons, ih, h]
    cases x with
    | unknown => rfl
    | coll k =>
      have hf : (m.withRecords l).findColl k = l.findColl k := rfl
      simp only [Lineage.releaseKey, hf]
      cases l.findColl k with
      | none => rfl
      | some r => dsimp only; split <;> rfl
    | blend k =>
      have hf : (m.withRecords l).findBlend k = l.findBlend k := rfl
      simp only [Lineage.releaseKey, hf]
      cases l.findBlend k with
      | none => rfl
      | some r =>
        dsimp only
        split
        · exact fold _ (l.dropBlend k)
        · rfl

/-- Releasing a list's keys acts on the two record tables only. -/
theorem Lineage.releaseAll_withRecords (ks : List Key) :
    (m.withRecords l).releaseAll ks = m.withRecords (l.releaseAll ks) := by
  induction ks generalizing l with
  | nil => rfl
  | cons k ks ih =>
    have h : (m.withRecords l).release k = m.withRecords (l.release k) :=
      Lineage.releaseKey_withRecords m l _ k
    unfold Lineage.releaseAll at ih ⊢
    rw [List.foldl_cons, List.foldl_cons, h, ih]

/-- What a release leaves is its argument with the tables that the release leaves. -/
theorem Lineage.releaseAll_eq (ks : List Key) : l.releaseAll ks = l.withRecords (l.releaseAll ks) := by
  have h := Lineage.releaseAll_withRecords l l ks
  rwa [Lineage.withRecords_self] at h

/-- A new reference of each of a list's keys acts on the two record tables only. -/
theorem Lineage.addRefs_withRecords (ks : List Key) :
    (m.withRecords l).addRefs ks = m.withRecords (l.addRefs ks) := by
  induction ks generalizing l with
  | nil => rfl
  | cons k ks ih =>
    have h : (m.withRecords l).addRef k = m.withRecords (l.addRef k) := by cases k <;> rfl
    unfold Lineage.addRefs at ih ⊢
    rw [List.foldl_cons, List.foldl_cons, h, ih]

/-- Opaque records join the two record tables only. -/
theorem Lineage.makeOpaque_withRecords (e : WriteEntry) :
    (m.withRecords l).makeOpaque e = m.withRecords (l.makeOpaque e) := by
  have hr : ∀ k, (m.withRecords l).resident k = l.resident k := fun k => by cases k <;> rfl
  unfold Lineage.makeOpaque
  cases e.share.key with
  | unknown => rfl
  | coll n => dsimp only; rw [hr]; split <;> rfl
  | blend n => dsimp only; rw [hr]; split <;> rfl

/-- Whether a key is suspect depends on the two record tables only. -/
theorem Lineage.listSuspect_congr {l k : Lineage} (hc : k.colls = l.colls) (hb : k.blends = l.blends)
    (ks : List Key) : k.listSuspect ks = l.listSuspect ks := by
  have h : k.keySuspect = l.keySuspect := by
    funext x
    cases x <;> simp only [Lineage.keySuspect, Lineage.findColl, Lineage.findBlend, hc, hb]
  simp only [Lineage.listSuspect, h]

/-- A ring's suspect flag depends on the two record tables only. -/
theorem Lineage.ringSuspect_congr {l k : Lineage} (hc : k.colls = l.colls) (hb : k.blends = l.blends)
    (r : Ring) : k.ringSuspect r = l.ringSuspect r := by
  simp only [Lineage.ringSuspect, Lineage.listSuspect_congr hc hb]

end records

end Sys2Proof.Machine
end

