-- ==== Sys2Proof/Laws/Tables.lean ====
section
/-! SUPPORT. Reading a table after writing it, and what the searches over the vessels find. -/

namespace Sys2Proof.Machine

open Sys2Proof

section tables

variable {l : Lineage} {i j : Nat}

theorem Lineage.setVessel_same (h : i < 64) (x : Vessel) : (l.setVessel i x).vessel i = x := by
  simp [Lineage.setVessel, Lineage.vessel, vget_vset, h]
theorem Lineage.setVessel_ne (h : i ≠ j) (x : Vessel) : (l.setVessel i x).vessel j = l.vessel j := by
  simp [Lineage.setVessel, Lineage.vessel, vget_vset, h]
theorem Lineage.setFiller_same (h : i < 8) (x : Filler) : (l.setFiller i x).filler i = x := by
  simp [Lineage.setFiller, Lineage.filler, vget_vset, h]
theorem Lineage.setFiller_ne (h : i ≠ j) (x : Filler) : (l.setFiller i x).filler j = l.filler j := by
  simp [Lineage.setFiller, Lineage.filler, vget_vset, h]
theorem Lineage.setRing_same (h : i < 8) (x : Ring) : (l.setRing i x).ring i = x := by
  simp [Lineage.setRing, Lineage.ring, vget_vset, h]
theorem Lineage.setRing_ne (h : i ≠ j) (x : Ring) : (l.setRing i x).ring j = l.ring j := by
  simp [Lineage.setRing, Lineage.ring, vget_vset, h]
theorem Lineage.setMeter_same (h : i < 48) (x : Meter) : (l.setMeter i x).meter i = x := by
  simp [Lineage.setMeter, Lineage.meter, vget_vset, h]
theorem Lineage.setMeter_ne (h : i ≠ j) (x : Meter) : (l.setMeter i x).meter j = l.meter j := by
  simp [Lineage.setMeter, Lineage.meter, vget_vset, h]

/-- A slot of a ring after one was set. -/
theorem Ring.slot_setSlot {r : Ring} (h : i < 6) (x : Slot) :
    (r.setSlot i x).slot j = if j = i then x else r.slot j := by
  simp only [Ring.setSlot, Ring.slot, vget_vset, h, and_true]
  by_cases e : i = j
  · simp [e]
  · simp [e, Ne.symm e]

/-- Setting a table's place twice leaves the second value. -/
theorem vset_vset {α : Type} {n : Nat} (v : Vector α n) (i : Nat) (x y : α) :
    vset (vset v i x) i y = vset v i y :=
  vec_ext _ x _ (fun k hk => by
    simp only [vget_vset]
    split <;> rfl)

/-- The vessel found for a bay index is a BAY of that index. -/
theorem Lineage.bayVessel_some {b v : Nat} (h : l.bayVessel b = some v) :
    v < 64 ∧ (l.vessel v).kind = .bay ∧ (l.vessel v).bayIndex = b := by
  have h1 := List.find?_some h
  have h2 := List.mem_of_find?_eq_some h
  simp only [Bool.and_eq_true, beq_iff_eq, List.mem_range] at h1 h2
  exact ⟨h2, h1⟩

/-- The vessel found for a filler index is a FILLER of that index. -/
theorem Lineage.fillerVessel_some {f v : Nat} (h : l.fillerVessel f = some v) :
    v < 64 ∧ (l.vessel v).kind = .filler ∧ (l.vessel v).fillerIndex = f := by
  have h1 := List.find?_some h
  have h2 := List.mem_of_find?_eq_some h
  simp only [Bool.and_eq_true, beq_iff_eq, List.mem_range] at h1 h2
  exact ⟨h2, h1⟩

/-- A configured vessel stands in the table. -/
theorem Lineage.vessel_lt {v : Nat} (h : (l.vessel v).kind ≠ .unconfigured) : v < 64 := by
  by_contra hv
  exact h (by simp [Lineage.vessel, vget, hv])

/-- The slots in turn from any slot on are all six. -/
theorem mem_slotsFrom {k start : Nat} : k ∈ slotsFrom start ↔ k < 6 := by
  simp only [slotsFrom, List.mem_map, List.mem_range]
  constructor
  · rintro ⟨a, _, rfl⟩
    omega
  · intro h
    exact ⟨(k + 6 - start % 6) % 6, by omega, by omega⟩

end tables

end Sys2Proof.Machine
end

