-- ==== Sys2Proof/Tests/Slice0.lean ====
section
/-! SUPPORT. The model's own tests: the checks of well-formedness, each against a term that it refuses;
worked cases of the manual; and for each statement with hypotheses a state and operands that meet them,
one line for each clause, at boundary values where a range is split. -/

namespace Sys2Proof.Tests

set_option Elab.async false

open Sys2Proof Sys2Proof.Machine

/-! ## Well-formedness: a term for each check, which the check refuses -/

/-- A header that fits. -/
def hdr0 : CmdHdr := { port := .b, source := 1, version := 1, tag := 7, argLen := 0, avail := 0 }

def entry0 : MatchEntry :=
  { valid := true, base := 5, limit := 6, kind := 2, cls := .meter, objBase := 9, count := 1,
    stride := 0, fields := [⟨4, 4⟩], volUnit := .cl }

def route0 : RouteArgs :=
  { bank := 1, index := 0, valid := 1, meter := 0, src := 0, dst := 1, count := 0, c1 := ⟨0, 0, 0⟩,
    c2 := ⟨0, 0, 0⟩ }

def write0 : WriteArgs :=
  { vessel := 0, cat := 3, uncertain := 0, entries := [⟨⟨1, 1⟩, 3, 50⟩] }

theorem test_wf_accepts : [Instr.status hdr0, .loadMatch hdr0 0 entry0, .loadRoute hdr0 route0,
    .vesselWrite hdr0 write0, .setClock hdr0 99999 86399 99, .meterEntry].all Instr.wf = true := by
  decide

theorem test_wf_refuses_headers : ([{ hdr0 with source := 2 ^ 48 }, { hdr0 with version := 256 },
    { hdr0 with tag := 65536 }, { hdr0 with argLen := 65536 }].map Instr.status).any Instr.wf
      = false := by decide

theorem test_wf_refuses_match : ((Instr.loadMatch hdr0 256 entry0) ::
    [{ entry0 with base := 65536 }, { entry0 with limit := 65536 }, { entry0 with kind := 256 },
     { entry0 with objBase := 256 }, { entry0 with count := 256 }, { entry0 with stride := 65536 },
     { entry0 with fields := [] }, { entry0 with fields := [⟨65536, 4⟩] },
     { entry0 with fields := [⟨4, 256⟩] }].map (Instr.loadMatch hdr0 0)).any Instr.wf = false := by
  decide

theorem test_wf_refuses_filter_and_override :
    ([Instr.loadFilter hdr0 ⟨65536, 0, 1, 0⟩, .loadFilter hdr0 ⟨0, 65536, 1, 0⟩,
     .loadFilter hdr0 ⟨0, 0, 256, 0⟩, .loadFilter hdr0 ⟨0, 0, 1, 65536⟩,
     .loadOverride hdr0 256 ⟨true, 0, 0, 0⟩, .loadOverride hdr0 0 ⟨true, 256, 0, 0⟩].any
      Instr.wf) = false := by decide

theorem test_wf_refuses_vessels :
    ([Instr.loadVessel hdr0 256 .unconfigured, .loadVessel hdr0 0 (.store (2 ^ 32)),
     .loadVessel hdr0 0 (.bay 256 0), .loadVessel hdr0 0 (.bay 0 256),
     .loadVessel hdr0 0 (.filler 256 0 0 0 0 0), .loadVessel hdr0 0 (.filler 0 256 0 0 0 0),
     .loadVessel hdr0 0 (.filler 0 0 (2 ^ 48) 0 0 0), .loadVessel hdr0 0 (.filler 0 0 0 256 0 0),
     .loadVessel hdr0 0 (.filler 0 0 0 0 65536 0), .loadVessel hdr0 0 (.filler 0 0 0 0 0 65536),
     .loadVessel hdr0 0 (.unknown 3), .loadVessel hdr0 0 (.unknown 256)].any Instr.wf) = false := by
  decide

theorem test_wf_refuses_routes : ([{ route0 with bank := 256 }, { route0 with index := 256 },
    { route0 with valid := 256 },
    { route0 with meter := 256 }, { route0 with src := 256 }, { route0 with dst := 256 },
    { route0 with count := 256 }, { route0 with c1 := ⟨256, 0, 0⟩ },
    { route0 with c2 := ⟨256, 0, 0⟩ }].map (Instr.loadRoute hdr0)).any Instr.wf = false := by decide

theorem test_wf_refuses_meters_and_tables :
    ([Instr.loadMeter hdr0 256 16 1 1 0, .loadMeter hdr0 0 256 1 1 0, .loadMeter hdr0 0 16 65536 1 0,
     .loadMeter hdr0 0 16 1 65536 0, .loadMeter hdr0 0 16 1 1 (2 ^ 32), .loadCategory hdr0 [],
     .loadCategory hdr0 (List.replicate 64 256), .loadPolicy hdr0 (.cond 256 0 0),
     .loadPolicy hdr0 (.cond 0 256 0), .loadPolicy hdr0 (.cond 0 0 256),
     .loadPolicy hdr0 (.content 3 0), .loadPolicy hdr0 (.content 0 256),
     .loadOutput hdr0 256 0 0 0, .loadOutput hdr0 0 256 0 0, .loadOutput hdr0 0 0 256 0,
     .loadOutput hdr0 0 0 0 256].any Instr.wf) = false := by decide

theorem test_wf_refuses_settings :
    ([Instr.setManagers hdr0 (2 ^ 48) 0, .setManagers hdr0 0 (2 ^ 48), .setPlant hdr0 65536,
     .setSerials hdr0 (2 ^ 32) 0 0, .setSerials hdr0 0 (2 ^ 32) 0, .setSerials hdr0 0 0 (2 ^ 32),
     .setClock hdr0 (2 ^ 32) 0 0, .setClock hdr0 0 (2 ^ 32) 0, .setClock hdr0 0 0 256,
     .idleTimerExpiry 8, .frameReceive .a true []].any Instr.wf) = false := by decide

theorem test_wf_refuses_readings :
    ([Instr.readVessel hdr0 256, .readKey hdr0 ⟨16, 0⟩, .readKey hdr0 ⟨0, 2 ^ 28⟩,
     .readBatch hdr0 256 0, .readBatch hdr0 0 256, .readBay hdr0 256,
     .readMeter hdr0 256].any Instr.wf) = false := by decide

theorem test_wf_refuses_queued :
    ([Instr.vesselWrite hdr0 { write0 with vessel := 256 }, .vesselWrite hdr0 { write0 with cat := 256 },
     .vesselWrite hdr0 { write0 with uncertain := 256 },
     .vesselWrite hdr0 { write0 with entries := List.replicate 256 ⟨⟨0, 0⟩, 0, 1⟩ },
     .vesselWrite hdr0 { write0 with entries := [⟨⟨16, 0⟩, 0, 1⟩] },
     .vesselWrite hdr0 { write0 with entries := [⟨⟨0, 0⟩, 256, 1⟩] },
     .vesselWrite hdr0 { write0 with entries := [⟨⟨0, 0⟩, 0, 2 ^ 32⟩] },
     .manualTransfer hdr0 256 0 1, .manualTransfer hdr0 0 256 1, .manualTransfer hdr0 0 1 (2 ^ 32),
     .cipStart hdr0 256, .cipEnd hdr0 256, .batchOpen hdr0 256 0 0, .batchOpen hdr0 0 65536 0,
     .batchOpen hdr0 0 0 256, .batchClose hdr0 256, .suspectKey hdr0 ⟨16, 0⟩,
     .suspectSample hdr0 (2 ^ 32), .suspectFarm hdr0 (2 ^ 32), .releaseKey hdr0 ⟨16, 0⟩,
     .releaseSample hdr0 (2 ^ 32), .releaseFarm hdr0 (2 ^ 32),
     .holdRelease hdr0 256].any Instr.wf) = false := by decide +kernel

/-! ## The table gives no bits -/

theorem test_no_word_spells_a_command : decodeTableWord 8 3 = none ∧
    State.reset.withFetchWord 8 3 = State.reset := ⟨rfl, rfl⟩

/-! ## Worked cases of the manual -/

/-- The check digits of section 6.4. -/
theorem test_worked_codes : composeCode 417 3 20153 21 = 41703201530002196 ∧
    composeCode 417 3 20153 22 = 41703201530002293 := by decide +kernel

/-- The three-share silo of section 2.3. -/
theorem test_worked_apportionment :
    apportion 33333 [1200000, 450000, 350000] = [20000, 7500, 5833] := by decide

/-- Meter 9 of section 2.1: the third and the fourth reading. -/
def meter9 : Meter :=
  { configured := true, width := 16, num := 100, den := 3, jump := 5000, ref := 65530,
    refValid := true, residue := 2 }

theorem test_worked_meter :
    readMeterTotal meter9 4 = .forward { meter9 with ref := 4, residue := 0 } 334 ∧
    readMeterTotal { meter9 with ref := 4, residue := 0 } 1 =
      .backward { meter9 with ref := 1, residue := 0 } 4 1 := by decide

/-- The merge of section 2.3 into tank 30. -/
theorem test_worked_merge :
    mergeInto [⟨.coll 18, 10000⟩, ⟨.coll 77, 5000⟩]
      [⟨.coll 17, 20000⟩, ⟨.coll 18, 7500⟩, ⟨.blend 4, 5833⟩] =
      [⟨.coll 18, 17500⟩, ⟨.coll 77, 5000⟩, ⟨.coll 17, 20000⟩, ⟨.blend 4, 5833⟩] := by decide

/-- A reading combines in place; a sequenced entry behind the candidate stops it. -/
theorem test_combining :
    combine (.meter 1 9) ⟨0, 0, 2⟩ [⟨.meter 1 5, ⟨0, 0, 0⟩, 0, false⟩, ⟨.carton 0 4, ⟨0, 0, 1⟩, 0, false⟩]
      = some [⟨.meter 1 9, ⟨0, 0, 2⟩, 0, false⟩, ⟨.carton 0 4, ⟨0, 0, 1⟩, 0, false⟩] ∧
    combine (.meter 1 9) ⟨0, 0, 2⟩ [⟨.meter 1 5, ⟨0, 0, 0⟩, 0, false⟩, ⟨.switchBank, ⟨0, 0, 1⟩, 3, true⟩]
      = none := by decide

/-- The record of section 12.4, byte by byte, on a route held by entry 6 of bank A. -/
theorem test_worked_segment_record :
    JournalRec.bytes
      { seq := 5005, time := ⟨20153, 38000, 0⟩, tag := 0
        payload := .segment
          { meter := 4, route := some { bank := .a, entry := 6, src := 40, dst := 11 },
            start := ⟨20153, 36000, 0⟩, stop := ⟨20153, 38000, 0⟩, vol := 600000, flags := {},
            reason := .route } } =
      [0x00, 0x00, 0x13, 0x8D, 0x00, 0x4E, 0xB9, 0x39, 0xFB, 0xC0, 5, 0, 0, 0, 25, 4, 40, 11, 0, 6,
       0x00, 0x4E, 0xB9, 0x36, 0xEE, 0x80, 0x00, 0x4E, 0xB9, 0x39, 0xFB, 0xC0,
       0x00, 0x00, 0x00, 0x09, 0x27, 0xC0, 0, 0] := by decide +kernel

/-! ## Helper states -/

/-- A port whose link is up. -/
def portUp : PortState := { linkUp := true }

/-- Both links up, a lineage state, nothing in flight. -/
def withLin (l : Lineage) : State := { State.reset with portA := portUp, portB := portUp, lin := l }

/-- Both links up on the state after reset. -/
def up : State := withLin {}

/-- An entry of values. -/
def entryOf (v : EntryVal) : Entry := { val := v, arrival := ⟨0, 0, 0⟩, tag := 0, command := false }

/-- An entry of values, taken. -/
def takenOf (v : EntryVal) : TakenEntry := { toEntry := entryOf v, takenAt := ⟨0, 0, 0⟩ }

/-- A state with an entry in flight. -/
def taking (l : Lineage) (v : EntryVal) : State := { withLin l with inFlight := some (takenOf v) }

/-- The header a command's layout asks for. -/
def hdrFor (c : Command) : CmdHdr :=
  { port := .b, source := 0x020000000001, version := 1, tag := 7, argLen := commandArgLen c,
    avail := commandArgLen c }

/-- A command with a layout passes the checks on any lineage state. -/
theorem passes (l : Lineage) (c : Command) (h : hasLayout c = true) :
    Passes (withLin l) (hdrFor c) c :=
  ⟨rfl, rfl, rfl, rfl, by simp [formOk, hdrFor, h]⟩

theorem takes (l : Lineage) (v : EntryVal) : Taken (taking l v) (takenOf v) := ⟨rfl, rfl⟩

/-- A frame of zeros. -/
def zeros (n : Nat) : Frame := List.replicate n 0

/-- A queue of 63 entries. -/
def fullQueue : List Entry := List.replicate 63 (entryOf (.compDone 0))

/-! ## The step, reset and the ports -/

theorem test_meets_idle_step : State.reset.pending = [] := rfl

theorem test_meets_reset_release :
    ({ State.reset with resetAsserted := true }).resetAsserted = true ∧
    State.reset.resetAsserted = false := ⟨rfl, rfl⟩

theorem test_meets_links : up.resetAsserted = false ∧ (State.reset.port .a).linkUp = false ∧
    (up.port .a).linkUp = true := ⟨rfl, rfl, rfl⟩

theorem test_meets_reception : up.resetAsserted = false ∧ (up.port .a).linkUp = true ∧
    (zeros 63).length < 64 ∧ 1518 < (zeros 1519).length ∧ 64 ≤ (zeros 64).length ∧
    (zeros 1518).length ≤ 1518 ∧ ¬ (Frame.dst (zeros 64) = up.station ∧
      Frame.etherType (zeros 64) = 0x9C5A) ∧
    (up.port (Port.other .a)).fwd.length < 12 ∧
    ({ portUp with fwd := List.replicate 12 [] }).fwd.length = 12 ∧
    ({ up with portB := {} }.port (Port.other .a)).linkUp = false := by decide +kernel

/-- A decoder of process frames of type 0 1, with one METER and one VALVE entry. -/
def plantEntry (c : ItemClass) (kind : Nat) : MatchEntry :=
  { valid := true, base := 0, limit := 0, kind := kind, cls := c, objBase := 4, count := 2,
    stride := 2, fields := [⟨2, 2⟩], volUnit := .cl }

def plantDecoder : Decoder :=
  { filter := ⟨0x0001, 0, 1, 1⟩
    matchTable := vset (vset (Vector.replicate 64 matchEntryReset) 3 (plantEntry .meter 0)) 63
      (plantEntry .valve 5) }

/-- A process frame of 64 bytes whose payload begins with a station and a kind. -/
def plantFrame (station kind : Byte) : Frame :=
  List.replicate 12 0 ++ [0, 1, station, kind] ++ List.replicate 48 0

def decoding : State := { up with dec := plantDecoder }

theorem test_meets_decoding_types : up.dec.filter.etherType = 0 ∧
    Frame.etherType (zeros 64) ≠ decoding.dec.filter.etherType ∧
    decoding.dec.filter.etherType ≠ 0 ∧
    Frame.etherType (plantFrame 0 0) = decoding.dec.filter.etherType := by decide +kernel

theorem test_meets_decoding_matches :
    (Frame.payload (plantFrame 0 0)).length = 46 ∧
    numAt! (Frame.payload (plantFrame 0 5)) 1 1 = 5 ∧
    (vget decoding.dec.matchTable 63 matchEntryReset).valid = true ∧
    (vget decoding.dec.matchTable 63 matchEntryReset).kind = 5 ∧
    (∀ j, j < 63 → (vget decoding.dec.matchTable j matchEntryReset).valid = true →
      (vget decoding.dec.matchTable j matchEntryReset).kind ≠ 5) ∧
    (∀ j, j < 64 → (vget decoding.dec.matchTable j matchEntryReset).valid = true →
      (vget decoding.dec.matchTable j matchEntryReset).kind ≠ 9) := by decide +kernel

/-- The station field beyond the payload: an offset of 46 with a payload of 46 bytes. -/
theorem test_meets_decoding_short :
    ¬ ((46 : Nat) + 1 ≤ (Frame.payload (plantFrame 0 0)).length) := by decide +kernel

/-- Items 0 to 21 of the METER entry fit a payload of 46 bytes, item 22 does not; the VALVE item is new to
an empty filter, and known to one that holds its value. -/
theorem test_meets_decoding_items :
    2 + 21 * 2 + 2 ≤ (Frame.payload (plantFrame 0 0)).length ∧
    (Frame.payload (plantFrame 0 0)).length < 2 + 22 * 2 + 2 ∧
    plantDecoder.lastValve 4 ≠ some 0 ∧
    ({ plantDecoder with valveFilter := vset (Vector.replicate 32 none) 4 (some 0) }).lastValve 4
      = some 0 ∧
    (decoding.offerItem (.valve 4 0) ⟨0, 0, 0⟩).2 = true ∧
    (({ decoding with evq := fullQueue }).offerItem (.valve 4 0) ⟨0, 0, 0⟩).2 = false := by
  decide +kernel

/-- A command frame of 64 bytes for strap value 0: version, code, tag 7 and arguments. -/
def commandFrame (version code argLen : Byte) (args : List Byte) : Frame :=
  [0x02, 0x4B, 0x57, 0, 0, 0, 0x02, 0, 0, 0, 0, 0x01, 0x9C, 0x5A, version, code, 0, 7, 0, argLen] ++
    args ++ List.replicate (44 - args.length) 0

/-- STATUS; a version of 2; a length beyond the payload; a LOAD_OVERRIDE whose flag byte is 2; a
VESSEL_WRITE of one entry with an uncertain byte of 2, which is a row; and a code of no row. -/
theorem test_meets_command_frames :
    Frame.dst (commandFrame 1 0x01 0 []) = up.station ∧
    Frame.etherType (commandFrame 1 0x01 0 []) = 0x9C5A ∧
    (commandFrame 1 0x01 0 []).length = 64 ∧ (up.port .a).linkUp = true ∧
    (Frame.payload (commandFrame 1 0x01 0 [])).length = 46 ∧
    frameRow hdr0 0x01 [] = some (.status hdr0) ∧
    (Frame.payload (commandFrame 2 0x01 0 [])).headD 0 = 2 ∧
    (Frame.payload (commandFrame 1 0x01 41 [])).length - 6 < 41 ∧
    frameRow hdr0 0x12 [0, 2, 0, 0, 0, 0, 0] = none ∧
    frameRow hdr0 0x12 [3, 1, 31, 0, 1, 0, 2] = some (.loadOverride hdr0 3 ⟨true, 31, 1, 2⟩) ∧
    frameRow hdr0 0x41 [0, 3, 2, 1, 0x10, 0, 0, 1, 3, 0, 0, 0, 50] =
      some (.vesselWrite hdr0 { write0 with uncertain := 2 }) ∧
    frameRow hdr0 0x15 [1, 0, 1, 0, 0, 1, 0, 0, 0, 0, 0, 0, 0, 0, 0, 0, 0] =
      some (.loadRoute hdr0 route0) ∧
    frameRow hdr0 0x77 [] = none := by decide +kernel

/-- A frame of a code that no row has is answered BAD_ARGUMENT. -/
theorem test_meets_command_frame_refused :
    exec (.frameReceive .a true (commandFrame 1 0x77 0 [])) up = .next (up.setPort .a
      (portUp.answered ⟨0x020000000001, 0x77, 7, .badArgument, []⟩)) :=
  congrArg Host.Outcome.next (by decide +kernel)

/-- A MANIFEST entry whose item 0 fits 46 bytes, without a sample id, and item 9 does not. -/
def manifestEntry : MatchEntry :=
  { plantEntry .manifest 0 with
    stride := 4, volUnit := .litre
    fields := [⟨2, 2⟩, ⟨4, 1⟩, ⟨5, 3⟩, ⟨8, 4⟩, ⟨12, 1⟩, ⟨0, 0⟩, ⟨13, 4⟩] }

theorem test_meets_manifest_items :
    manifestEntry.fields.length = manifestEntry.cls.widths.length ∧
    (∀ g ∈ manifestEntry.fields, g.width = 0 ∨ g.off + 0 * manifestEntry.stride + g.width ≤ 46) ∧
    (∃ g ∈ manifestEntry.fields, 0 < g.width ∧ 46 < g.off + 9 * manifestEntry.stride + g.width) ∧
    ItemClass.dispatch.widths.length = 3 ∧ ItemClass.compDone.widths.length = 0 := by decide +kernel

/-- Slots 0 and 3 force bit 0 of cluster 4, slot 3 being the highest; none forces bit 1. -/
theorem test_meets_overrides :
    let d := { plantDecoder with
      overrides := #v[⟨true, 4, 1, 1⟩, ⟨false, 4, 3, 0⟩, ⟨true, 5, 3, 0⟩, ⟨true, 4, 1, 0⟩] }
    (d.overridden 4 1).getLsbD 0 = false ∧ (d.overridden 4 2).getLsbD 1 = true := by decide +kernel

theorem test_meets_transmission :
    let i : Injected := .reply ⟨0, 0, 0, .done, []⟩
    (up.port .a).fwd = [] ∧ (up.port .a).inj = [] ∧
    ({ portUp with fwd := [[]] }).fwd = [] :: [] ∧
    ({ portUp with fwd := [[]], inj := [i], deferral := 3 }).deferral < 4 ∧
    4 ≤ ({ portUp with fwd := [[]], inj := [i], deferral := 4 }).deferral := by decide

/-! ## Invariants -/

theorem test_meets_ports_bounded : PortsBounded up := by
  intro p
  cases p <;>
    exact ⟨⟨by decide, by decide, by decide, fun h => by cases h⟩, rfl⟩

theorem test_meets_clock_in_range : ClockInRange up ∧
    ClockInRange { up with mgmt := { up.mgmt with clock := ⟨99999, 86399, 99⟩, clockSet := true } } :=
  ⟨⟨by decide, by decide, by decide⟩, ⟨by decide, by decide, by decide⟩⟩

theorem test_meets_residues : ResiduesBelowDen up := by unfold ResiduesBelowDen; decide +kernel

theorem test_meets_routes_resolved : RoutesResolved up := by unfold RoutesResolved; decide +kernel

theorem test_meets_queue_bounded : QueueBounded { up with evq := fullQueue ++ [entryOf (.gap 1)] } :=
  ⟨by decide +kernel, by decide +kernel⟩

theorem test_meets_journal_sound : JournalSound up ∧ JournalSound (taking {} .switchBank) :=
  ⟨⟨⟨fun k h => absurd h (Nat.not_lt_zero k), rfl, rfl⟩, by decide, fun h => absurd rfl h, by decide +kernel⟩,
   ⟨⟨fun k h => absurd h (Nat.not_lt_zero k), rfl, rfl⟩, by decide, fun _ => by decide, by decide +kernel⟩⟩

theorem test_meets_journal_ordered : up.jrn.ordered :=
  ⟨fun k h => absurd h (Nat.not_lt_zero k), rfl, rfl⟩

theorem test_meets_lineage_sound : LineageSound ({} : Lineage) where
  collSerials := by decide
  blendSerials := by decide
  collRoom := by decide
  blendRoom := by decide
  collRefs := by decide
  blendRefs := by decide
  resident := by decide +kernel
  stores := by
    have h : ∀ v, v < 64 → (({} : Lineage).vessel v).kind ≠ .store := by decide +kernel
    exact fun v hv hk => absurd hk (h v hv)
  others := by decide +kernel
  batches := by
    have h : ∀ f, f < 8 → (({} : Lineage).filler f).ring = [] := by decide +kernel
    intro f hf b hb
    rw [h f hf] at hb
    cases hb
  openBatch := by decide +kernel
  slots := by decide +kernel
  bays := by decide +kernel
  cleaning := by decide +kernel
  bayIndices := by
    have h : ∀ v, v < 64 → (({} : Lineage).vessel v).kind ≠ .bay := by decide +kernel
    exact fun u v hu _ hk => absurd hk (h u hu)
  freeRings := by decide +kernel
  freeFillers := by decide +kernel
  indices := by decide +kernel
  banks := by
    have h : ∀ i, i < 128 → (vget ({} : Lineage).bankA i {}).valid = false ∧
        (vget ({} : Lineage).bankB i {}).valid = false := by decide +kernel
    exact fun i hi => ⟨fun hv => absurd ((h i hi).1.symm.trans hv) (by decide),
      fun hv => absurd ((h i hi).2.symm.trans hv) (by decide)⟩

/-- A step that the invariants speak of. -/
theorem test_meets_step : step { up with pending := [.linkDown .a] } =
    .next { up with portA := { up.portA with linkUp := false } } := rfl

/-! ## Time -/

theorem test_meets_clock : up.resetAsserted = false ∧
    (⟨5, 86399, 99⟩ : TimeStamp).sec = 86399 ∧ (⟨5, 86399, 98⟩ : TimeStamp).hund ≠ 99 := by decide

/-- A batch with an empty list. -/
def batch0 : Batch :=
  { serial := 1, code := 41703201530002196, filler := 0, number := 3, product := 0, declared := none,
    openTime := ⟨0, 0, 0⟩, cause := .command, indefinite := false, unsent := false,
    firstSerial := none, list := [], cat := none, uncertain := false, mismatch := false,
    suspect := false, produced := 0, dispatched := 0, closeTime := none, reason := .stillOpen }

def idleFiller : Filler := { timer := some 0 }

def openFiller : Filler := { idleFiller with state := .batchOpen, ring := [batch0] }

theorem test_meets_idle_timers :
    ((withLin (Lineage.setFiller {} 7 idleFiller)).lin.filler 7).timer = some 0 ∧
    ((withLin (Lineage.setFiller {} 7 idleFiller)).lin.filler 7).openBatch = none ∧
    ((withLin (Lineage.setFiller {} 7 openFiller)).lin.filler 7).openBatch = some batch0 ∧
    ordinaryCount (fullQueue.drop 1) < 63 ∧ 63 ≤ ordinaryCount fullQueue := by decide +kernel

/-! ## Management commands -/

/-- A header of a wrong version. -/
def hdr1 : CmdHdr := { hdrFor (.atOnce .status) with version := 2 }

theorem test_meets_command_checks :
    commandOf (.status hdr1) = some (hdr1, .atOnce .status) ∧ hdr1.version ≠ 1 ∧
    8 ≤ ({ portUp with reservations := 8 }).inj.length + ({ portUp with reservations := 8 }).reservations ∧
    ({ up.mgmt with manager0 := 5 }).permits 6 = false ∧
    up.mgmt.permits 6 = true ∧
    formOk { hdr1 with argLen := 1 } (.atOnce .status) = false ∧ (6 : Nat) ≠ 0 := by decide +kernel

theorem test_meets_queued : Passes up (hdrFor (.queued .switchBank)) (.queued .switchBank) ∧
    commandOf (.switchBank (hdrFor (.queued .switchBank))) =
      some (hdrFor (.queued .switchBank), .queued .switchBank) ∧
    ordinaryCount (fullQueue.drop 1) < 63 ∧ 63 ≤ ordinaryCount fullQueue :=
  ⟨passes _ _ rfl, rfl, by decide +kernel, by decide +kernel⟩

theorem test_meets_waiting : Passes up (hdrFor .clear) .clear ∧
    Passes (taking {} .switchBank) (hdrFor (.between (.setPlant 1))) (.between (.setPlant 1)) ∧
    (taking {} .switchBank).inFlight ≠ none :=
  ⟨passes _ _ rfl, ⟨rfl, rfl, rfl, rfl, rfl⟩, by decide +kernel⟩

/-- A command that waits. -/
def waits (c : WaitCmd) : Waiting := { port := .a, source := 1, tag := 1, lost := false, cmd := c }

theorem test_meets_deferred :
    let s := { up with waiting := [waits (.between (.setPlant 1)), waits .clear] }
    s.resetAsserted = false ∧ s.inFlight = none ∧
    s.waiting = [waits (.between (.setPlant 1))] ++ [waits .clear] ∧
    (∀ w ∈ [waits (.between (.setPlant 1))], w.cmd ≠ .clear) ∧
    (∀ w, [waits .clear].head? = some w → w.cmd = .clear) :=
  ⟨rfl, rfl, rfl, by decide, fun w h => by cases h; rfl⟩

theorem test_meets_loads_at_once :
    Passes up (hdrFor (.atOnce (.loadMatch 63 (plantEntry .meter 0))))
      (.atOnce (.loadMatch 63 (plantEntry .meter 0))) ∧
    (63 : Nat) ≤ 63 ∧ ¬ ((64 : Nat) ≤ 63) ∧ (plantEntry .meter 0).base ≤ (plantEntry .meter 0).limit ∧
    1 ≤ (plantEntry .meter 0).count ∧ (plantEntry .meter 0).stride ≤ 1499 ∧
    (∀ f ∈ (plantEntry .meter 0).fields, f.off ≤ 1499) ∧
    List.Forall₂ (fun ws f => f.width ∈ ws) [[1, 2, 4]] (plantEntry .meter 0).fields ∧
    (plantEntry .meter 0).objBase + (plantEntry .meter 0).count ≤ 48 ∧
    Passes up (hdrFor (.atOnce (.loadFilter ⟨1, 1499, 2, 0⟩))) (.atOnce (.loadFilter ⟨1, 1499, 2, 0⟩)) ∧
    Passes up (hdrFor (.atOnce (.loadOverride 3 ⟨true, 31, 0, 0⟩)))
      (.atOnce (.loadOverride 3 ⟨true, 31, 0, 0⟩)) ∧
    Passes up (hdrFor (.atOnce (.setManagers 0 9))) (.atOnce (.setManagers 0 9)) ∧
    ¬ (9 / 2 ^ 40 % 2 = 1 ∨ 9 = up.station) ∧ 2 ^ 40 / 2 ^ 40 % 2 = 1 :=
  ⟨passes _ _ rfl, by decide, by decide, by decide, by decide, by decide, by decide, by decide,
    by decide, passes _ _ rfl, passes _ _ rfl, passes _ _ rfl, by decide +kernel, by decide⟩

theorem test_meets_status : Passes up (hdrFor (.atOnce .status)) (.atOnce .status) := passes _ _ rfl

/-- A journal of one published record. -/
def journal1 : Journal :=
  { oldest := 1, published := 2, written := 2,
    records := [⟨1, ⟨0, 0, 0⟩, 0, .engineSwitch .b⟩] }

theorem test_meets_journal : (journal1.published - journal1.oldest).toNat = 1 ∧
    Passes up (hdrFor (.atOnce (.journalFetch 1))) (.atOnce (.journalFetch 1)) ∧
    Passes up (hdrFor (.atOnce (.journalRelease 1))) (.atOnce (.journalRelease 1)) ∧
    ((1 : Seq) - journal1.oldest).toNat = 0 ∧ ((2 : Seq) - journal1.oldest).toNat = 1 ∧
    ((3 : Seq) - journal1.oldest).toNat = 2 ∧
    ((1 : Seq) - journal1.oldest + 1).toNat = 1 ∧ ((2 : Seq) - journal1.oldest + 1).toNat = 2 :=
  ⟨by decide, passes _ _ rfl, passes _ _ rfl, by decide, by decide, by decide, by decide, by decide⟩

/-! ## A plant -/

/-- Collections 1 and 2 and blend 1, all resident. -/
def coll (n : Nat) : CollRec := { serial := n, cat := 2, mark := false, refs := 1, info := none }

def blend1 : BlendRec :=
  { serial := 1, cat := 2, direct := false, derived := false, refs := 1,
    info := some { created := ⟨0, 0, 0⟩, vessel := 0, members := [⟨.coll 2, 5⟩] } }

/-- A STORE with content. -/
def silo : Vessel :=
  { kind := .store, capacity := 1000, state := .holding, list := [⟨.coll 1, 100⟩], cat := some 2 }

def slot1 (t : SlotTag) (comp : Nat) : Slot :=
  { tag := t, tanker := 1, comp := comp, shares := [⟨.coll 2, 50, 60⟩], drawn := 10 }

/-- A bay with slot 0 DISCHARGING and slot 1 LOADED. -/
def ring1 : Ring :=
  { slots := #v[slot1 .discharging 1, slot1 .loaded 2, {}, {}, {}, {}], fill := 2, disch := 0 }

/-- STOREs 0 (holding), 1 (unseeded) and 2 (cleaning), BAYs 3 (of index 7) and 4 (of index 1, cleaning),
FILLERs 5 (open), 6 (idle) and 7 (cleaning). -/
def plant : Lineage :=
  let l : Lineage :=
    { colls := [(0, coll 1), (1, coll 2)], blends := [(0, blend1)], collNext := 3, blendNext := 2
      fillers := #v[openFiller, {}, { state := .cleaning }, {}, {}, {}, {}, {}]
      rings := #v[{}, {}, {}, {}, {}, {}, {}, ring1] }
  (((((((l.setVessel 0 silo).setVessel 1 { kind := .store, capacity := 1, cat := some 0 }).setVessel 2
    { kind := .store, capacity := 1, state := .cleaning }).setVessel 3
    { kind := .bay, bayIndex := 7, tolerance := 3, state := .holding }).setVessel 4
    { kind := .bay, bayIndex := 1, state := .cleaning }).setVessel 5
    { kind := .filler, fillerIndex := 0, state := .holding }).setVessel 6
    { kind := .filler, fillerIndex := 1, state := .holding }).setVessel 7
    { kind := .filler, fillerIndex := 2, state := .holding }

theorem test_meets_readings : (withLin plant).inFlight = none ∧ (withLin plant).waiting = [] ∧
    Passes (withLin plant) (hdrFor (.between (.readVessel 63))) (.between (.readVessel 63)) ∧
    (⟨3, 0⟩ : RawKey).toRecordKey = none ∧
    (⟨1, 9⟩ : RawKey).toRecordKey = some (.coll 9) ∧ plant.resident (.coll 9) = false ∧
    plant.findColl 1 = some (0, coll 1) ∧ plant.findBlend 1 = some (0, blend1) ∧
    (plant.filler 0).ring.reverse[0]? = some batch0 ∧ (plant.filler 7).ring.reverse[7]? = none ∧
    (plant.vessel 3).kind = .bay :=
  ⟨rfl, rfl, passes _ _ rfl, by decide +kernel, by decide +kernel, by decide +kernel,
    by decide +kernel, by decide +kernel, by decide +kernel, by decide +kernel, by decide +kernel⟩

theorem test_meets_load_vessel :
    Passes (withLin plant) (hdrFor (.between (.loadVessel 63 (.bay 7 100))))
      (.between (.loadVessel 63 (.bay 7 100))) ∧
    ¬ ((8 : Nat) ≤ 7) ∧ (7 : Nat) ≤ 7 ∧ (100 : Nat) ≤ 100 ∧ ¬ (1 ≤ (0 : Nat)) ∧
    ((plant.vessel 3).kind = .bay ∧ (plant.vessel 3).bayIndex = 7 ∧ 3 ≠ 63) ∧
    (∀ u, u < 64 → ¬ ((plant.vessel u).kind = .bay ∧ (plant.vessel u).bayIndex = 0)) ∧
    ((plant.vessel 0).kind = .store ∧ (plant.vessel 0).state = .holding ∧ (plant.vessel 0).list ≠ []) ∧
    ((plant.ring 7).slot 0).tag ≠ .empty ∧ (plant.filler 0).state = .batchOpen ∧
    (plant.vessel 63).kind = .unconfigured ∧
    (∀ i, i < 128 → (plant.activeEntry i).valid = false) :=
  ⟨passes _ _ rfl, by decide, by decide, by decide, by decide, by decide +kernel, by decide +kernel,
    by decide +kernel, by decide +kernel, by decide +kernel, by decide +kernel, by decide +kernel⟩

/-- A new kind, and a BAY and a FILLER loaded anew with their kind and index kept. -/
theorem test_meets_load_vessel_kinds : (plant.vessel 63).kind ≠ .bay ∧
    (∀ u, u < 64 → u ≠ 3 → ¬ ((plant.vessel u).kind = .bay ∧ (plant.vessel u).bayIndex = 7)) ∧
    (plant.vessel 3).kind = .bay ∧ (plant.vessel 3).bayIndex = 7 ∧
    (∀ u, u < 64 → u ≠ 6 → ¬ ((plant.vessel u).kind = .filler ∧ (plant.vessel u).fillerIndex = 1)) ∧
    (plant.vessel 6).kind = .filler ∧ (plant.vessel 6).fillerIndex = 1 := by decide +kernel

theorem test_meets_load_meter :
    Passes up (hdrFor (.between (.loadMeter 47 16 65535 1 1000000000)))
      (.between (.loadMeter 47 16 65535 1 1000000000)) ∧ up.inFlight = none ∧ up.waiting = [] ∧
    ¬ ((48 : Nat) ≤ 47) := ⟨passes _ _ rfl, rfl, rfl, by decide⟩

/-- A route from silo 0 to silo 1, into bank B, which is not active. -/
def routeArgs : RouteArgs :=
  { bank := 1, index := 127, valid := 1, meter := 47, src := 0, dst := 1, count := 2,
    c1 := ⟨31, 0, 0⟩, c2 := ⟨0, 0, 0⟩ }

theorem test_meets_load_route :
    Passes (withLin plant) (hdrFor (.between (.loadRoute routeArgs))) (.between (.loadRoute routeArgs)) ∧
    bankOfByte routeArgs.bank = some .b ∧ Bank.b ≠ plant.active ∧ bankOfByte 0 = some plant.active ∧
    (plant.vessel 0).kind ≠ .unconfigured ∧ (plant.vessel 1).kind ≠ .bay ∧
    (plant.vessel 63).kind = .unconfigured :=
  ⟨passes _ _ rfl, by decide +kernel, by decide +kernel, by decide +kernel, by decide +kernel,
    by decide +kernel, by decide +kernel⟩

/-- The valid byte at 1 and above, and at 0, where the rest of the entry is not checked. -/
theorem test_meets_load_route_valid : routeArgs.valid ≤ 1 ∧ 1 < ({ routeArgs with valid := 2 }).valid ∧
    ({ routeArgs with valid := 0, meter := 48 }).valid = 0 ∧ ¬ (({ routeArgs with meter := 48 }).meter ≤ 47) ∧
    (withLin plant).inFlight = none := by decide +kernel

theorem test_meets_load_category :
    Passes up (hdrFor (.between (.loadCategory (List.replicate 64 7))))
      (.between (.loadCategory (List.replicate 64 7))) ∧
    (List.replicate 64 7).length = 64 ∧ (∀ x ∈ List.replicate 64 7, x ≤ 7) ∧
    (∃ x ∈ List.replicate 64 8, 7 < x) :=
  ⟨passes _ _ rfl, rfl, by decide +kernel, by decide +kernel⟩

theorem test_meets_load_policy_and_output :
    Passes up (hdrFor (.between (.loadPolicy (.cond 19 1 3)))) (.between (.loadPolicy (.cond 19 1 3))) ∧
    Passes up (hdrFor (.between (.loadPolicy (.content 2 0)))) (.between (.loadPolicy (.content 2 0))) ∧
    Passes up (hdrFor (.between (.loadOutput 11 1 7 1))) (.between (.loadOutput 11 1 7 1)) ∧
    flagOfByte 1 = some true ∧ targetOfByte 3 = some .dispatch ∧ sourceOfByte 1 = some .fillerHold :=
  ⟨passes _ _ rfl, passes _ _ rfl, passes _ _ rfl, rfl, rfl, rfl⟩

theorem test_meets_settings :
    Passes up (hdrFor (.between (.setPlant 9999))) (.between (.setPlant 9999)) ∧
    Passes up (hdrFor (.between (.setSerials 0 268435455 1))) (.between (.setSerials 0 268435455 1)) ∧
    Passes up (hdrFor (.between (.setClock 99999 86399 99))) (.between (.setClock 99999 86399 99)) ∧
    up.jrn.free ≠ 0 ∧ ({ journal1 with written := 4097 }).free = 0 :=
  ⟨passes _ _ rfl, passes _ _ rfl, passes _ _ rfl, by decide +kernel, by decide +kernel⟩

theorem test_meets_clear_engine :
    let s := { withLin plant with waiting := [waits .clear] }
    s.resetAsserted = false ∧ s.inFlight = none ∧ s.waiting = waits .clear :: [] ∧
    (waits .clear).cmd = .clear ∧ 80 ≤ s.jrn.free := ⟨rfl, rfl, rfl, rfl, by decide +kernel⟩

/-! ## The engine, conditions and holds -/

theorem test_meets_taking :
    let s := { up with evq := [entryOf .switchBank] }
    s.resetAsserted = false ∧ s.inFlight = none ∧ s.waiting = [] ∧
    s.evq = entryOf .switchBank :: [] ∧ 80 ≤ s.jrn.free ∧
    (entryOf .switchBank).isGap = false ∧ (entryOf (.gap 1)).isGap = true ∧
    ({ journal1 with written := 4018 }).free < 80 ∧ 80 ≤ ({ journal1 with written := 4017 }).free := by
  decide +kernel

/-- Two pending idle closes and one ordinary slot free: the lower filler's joins the queue, the other stays
pending. -/
theorem test_worked_pending_idle_close :
    let pending := fun (l : Lineage) f => l.setFiller f { l.filler f with pendingIdle := some (7, ⟨1, 2, 3⟩) }
    let s := { withLin (pending (pending {} 5) 2) with evq := fullQueue }
    s.settle.evq = fullQueue.tail ++ [⟨.idleClose 2 7 ⟨1, 2, 3⟩, ⟨0, 0, 0⟩, 0, false⟩] ∧
    (s.settle.lin.filler 2).pendingIdle = none ∧
    (s.settle.lin.filler 5).pendingIdle = some (7, ⟨1, 2, 3⟩) := by decide +kernel

theorem test_meets_operations : Taken (taking plant .switchBank) (takenOf .switchBank) ∧
    exec (entryOf (.compDone 9)).val.row (taking {} (.compDone 9)) =
      .next ((taking {} (.compDone 9)).atEntry
        (fun e s => some { st := s.opCompDone e.tag 9 })) := ⟨takes _ _, rfl⟩

theorem test_meets_pins : (11 : Nat) < 12 ∧
    ({ up.hold with outMap := vset up.hold.outMap 11 { source := .forcedOn, activeLow := true } }).outMap[11]
      = { source := .forcedOn, activeLow := true } ∧
    ({ up with evq := [entryOf .switchBank] }).engine = .stalled ∧
    (taking {} .switchBank).engine = .running := by decide +kernel

theorem test_meets_eighty_records : (∀ f, f < 8 → (plant.filler f).ring.length ≤ 8) ∧
    Taken (taking plant (.suspectFarm 3)) (takenOf (.suspectFarm 3)) :=
  ⟨by decide +kernel, takes _ _⟩

/-! ## Meters, valves and routes -/

/-- A meter of 16 bits with a valid reference of 10, a scale of 1 / 1 and a route. -/
def meterOf (r : Option Route) : Meter :=
  { configured := true, width := 16, ref := 10, refValid := true, route := r }

def metered (r : Option Route) : Lineage := plant.setMeter 47 (meterOf r)

/-- Not configured; no reference; a delta of 32,768 and one of 32,767 at the boundary of 16 bits; a
volume of 0 and above 0. -/
theorem test_meets_meter_readings : (plant.meter 46).configured = false ∧
    ({ meterOf none with refValid := false }).refValid = false ∧
    (metered none).meter 47 = meterOf none ∧
    2 ^ 15 ≤ (32778 % 2 ^ 16 + 2 ^ 16 - 10) % 2 ^ 16 ∧ (32777 % 2 ^ 16 + 2 ^ 16 - 10) % 2 ^ 16 < 2 ^ 15 ∧
    ((10 % 2 ^ 16 + 2 ^ 16 - 10) % 2 ^ 16 * 1 + 0) / 1 = 0 ∧
    0 < ((11 % 2 ^ 16 + 2 ^ 16 - 10) % 2 ^ 16 * 1 + 0) / 1 ∧
    Taken (taking (metered none) (.meter 47 11)) (takenOf (.meter 47 11)) :=
  ⟨by decide +kernel, rfl, by decide +kernel, by decide, by decide, by decide, by decide, takes _ _⟩

/-- A route of bank A from a vessel to another. -/
def routeOf (src dst : Nat) : Route := { bank := .a, entry := 0, src := src, dst := dst }

theorem test_meets_flow_cases : ((metered none).meter 47).route = none ∧
    ((metered (some (routeOf 0 0))).meter 47).route = some (routeOf 0 0) ∧
    (metered (some (routeOf 2 1))).isCleaning 2 = true ∧
    (metered (some (routeOf 0 2))).isCleaning 2 = true ∧
    (metered (some (routeOf 0 1))).isCleaning 0 = false ∧
    (metered (some (routeOf 0 1))).isCleaning 1 = false ∧ (routeOf 0 1).src ≠ (routeOf 0 1).dst ∧
    (meterOf none).jump = 0 := by decide +kernel

/-- A volume of the jump limit and one above it, a segment at its top and one below, a volume of the
ceiling and one above it. -/
theorem test_meets_flow_boundaries : ¬ (0 < 5 ∧ 5 < (5 : Nat)) ∧ (0 < 5 ∧ 5 < (6 : Nat)) ∧
    ({ meterOf none with jump := 5 }).jumps 5 = false ∧ ({ meterOf none with jump := 5 }).jumps 6 = true ∧
    2 ^ 48 - 1 < 281474976710655 + 1 ∧ ¬ (2 ^ 48 - 1 < 281474976710654 + 1) ∧
    ¬ (1000000000 < 1000000000 * 1 / 1) ∧ 1000000000 < (20000 * 65535 + 0) / 1 := by decide

theorem test_meets_valves : Taken (taking plant (.valve 31 5)) (takenOf (.valve 31 5)) ∧ 31 < 32 :=
  ⟨takes _ _, by decide⟩

theorem test_meets_resolution :
    let l := { plant with bankA := vset plant.bankA 127 { valid := true, meter := 5, src := 0, dst := 1 } }
    l.resolve 5 = some { bank := .a, entry := 127, src := 0, dst := 1 } ∧ plant.resolve 5 = none := by
  decide +kernel

/-! ## The Event Queue -/

theorem test_meets_combining :
    (EntryVal.meter 1 9).sameReading (.meter 1 5) = true ∧
    (EntryVal.carton 1 9).combinable = true ∧ (EntryVal.meter 1 9).sameReading (.carton 1 9) = false ∧
    EntryVal.switchBank.combinable = false ∧ (EntryVal.meter 1 9).sameReading .switchBank = false := by
  decide

/-- A reading behind an entry of its meter, with one of a carton counter between. -/
theorem test_meets_combining_takes :
    combine (.meter 1 9) ⟨0, 0, 1⟩ [entryOf (.meter 1 5), entryOf (.carton 1 9)] =
      some [{ entryOf (.meter 1 9) with arrival := ⟨0, 0, 1⟩ }, entryOf (.carton 1 9)] := by
  decide +kernel

theorem test_meets_combining_nothing :
    (∀ x ∈ ([] : List Entry), (EntryVal.meter 1 9).sameReading x.val = false) ∧
    combine (.meter 1 9) ⟨0, 0, 0⟩ [] = none ∧
    (∀ x ∈ [entryOf (.meter 2 9), entryOf (.carton 1 9)], (EntryVal.meter 1 9).sameReading x.val = false) ∧
    ordinaryCount (fullQueue.drop 1) < 63 := by decide +kernel

theorem test_meets_refusals : combine (.meter 1 9) ⟨0, 0, 0⟩ fullQueue = none ∧
    63 ≤ ordinaryCount fullQueue ∧ (EntryVal.meter 1 9).combinable = true ∧
    combine (.compDone 0) ⟨0, 0, 0⟩ fullQueue = none ∧ (EntryVal.compDone 0).combinable = false ∧
    (∀ e ∈ fullQueue, e.isGap = false) := by decide +kernel

theorem test_meets_gap : Taken (taking plant (.gap 3)) (takenOf (.gap 3)) ∧
    (plant.vessel 5).kind = .filler ∧ (plant.vessel 5).fillerIndex < 8 :=
  ⟨takes _ _, by decide +kernel, by decide +kernel⟩

/-! ## Vessels and transfers -/

theorem test_meets_apportionment : 0 < ([0, 3] : List Nat).sum ∧ 1 < ([0, 3] : List Nat).length ∧
    3 ≤ ([0, 3] : List Nat).sum := by decide

theorem test_meets_transfers : (0 : Nat) ≠ 1 ∧ (plant.vessel 0).kind = .store ∧
    (plant.vessel 0).state = .holding ∧ (plant.vessel 1).state = .unseeded ∧
    (plant.vessel 1).list = [] ∧ plant.isCleaning 0 = false ∧ plant.isCleaning 1 = false ∧
    plant.isCleaning 6 = false ∧ (plant.vessel 3).kind = .bay ∧ (plant.vessel 3).bayIndex < 8 ∧
    (plant.ring 7).disch < 6 ∧ (plant.vessel 6).kind = .filler ∧ (plant.filler 1).state = .idle ∧
    (plant.openBatchOf (plant.vessel 5)).isSome = true := by decide +kernel

theorem test_meets_transfer_lists : ListSound (plant.listOf (plant.vessel 1)) ∧
    ListSound (plant.listOf (plant.vessel 0)) := by
  have h1 : plant.listOf (plant.vessel 1) = [] := by decide +kernel
  have h0 : plant.listOf (plant.vessel 0) = [⟨.coll 1, 100⟩] := by decide +kernel
  rw [h1, h0]
  exact ⟨⟨by decide, by decide, by decide⟩, ⟨by decide, by decide, by decide⟩⟩

/-- A STORE that gives all it holds and one short of a draw, an UNSEEDED one, a slot of content and an
EMPTY one. -/
theorem test_meets_draws : 100 ≤ total (plant.vessel 0).list ∧ total (plant.vessel 0).list < 101 ∧
    (∀ y ∈ (plant.vessel 0).list, 0 < y.vol) ∧ (plant.vessel 0).state ≠ .unseeded ∧
    (plant.vessel 1).state = .unseeded ∧ (plant.vessel 3).kind = .bay ∧
    (plant.ring 7).dischSlot.tag ≠ .empty ∧ (plant.ring 1).dischSlot = {} ∧
    (plant.vessel 4).bayIndex = 1 := by decide +kernel

/-- Shares of collections 1 to n. -/
def shares (n : Nat) : List Share := (List.range n).map (fun k => ⟨.coll (k + 1), 10⟩)

/-- Shares of blends 11 to n + 10. -/
def blendShares (n : Nat) : List Share := (List.range n).map (fun k => ⟨.blend (k + 11), 20⟩)

theorem test_meets_merges : (keysOf (shares 12)).Nodup ∧ (joined [] (shares 12)).length = 12 ∧
    (joined (blendShares 1) (shares 12)).length = 13 ∧ (blendShares 1).length < 2 ∧
    (joined (blendShares 2) (shares 11)).length = 13 ∧ (joined (blendShares 1) (shares 11)).length = 12 ∧
    plant.blends.length < 1023 ∧ plant.resident (.blend plant.blendNext) = false ∧
    ({ plant with blends := List.replicate 1023 (0, blend1) }).blends.length = 1023 ∧
    ({ plant with blends := List.replicate 1024 (0, blend1) }).blends.length = 1024 := by decide +kernel

/-- The serial counters stand in their range; one at its top whose serial is resident issues 1. -/
theorem test_meets_serial_counters :
    1 ≤ plant.collNext ∧ plant.collNext ≤ 268435455 ∧ 1 ≤ plant.blendNext ∧
    plant.blendNext ≤ 268435455 ∧ 1 ≤ plant.batchNext ∧ plant.batchNext ≤ 268435455 ∧
    (∀ g, g < 8 → (plant.filler g).ring.length ≤ 8) ∧
    ({ plant with blendNext := 268435455
                  blends := [(0, { blend1 with serial := 268435455 })] }).issueBlend = 1 := by
  decide +kernel

theorem test_meets_truncation : (keysOf (shares 13)).Nodup ∧ 12 < (shares 13).length ∧
    Key.unknown ∉ keysOf (shares 13) ∧ (keysOf (⟨.unknown, 1⟩ :: shares 12)).Nodup ∧
    12 < (Share.mk .unknown 1 :: shares 12).length := by decide +kernel

theorem test_meets_flow_into_fillers : (plant.vessel 6).kind = .filler ∧ (plant.filler 1).state = .idle ∧
    (plant.filler 0).state ≠ .cleaning ∧
    ((withLin plant).prepareDst 5 0 true).lin.filler 0 = plant.filler 0 ∧
    (plant.filler 0).ring = [] ++ [batch0] ∧
    (((withLin plant).prepareDst 6 0 true).lin.filler 1).ring.length = 1 := by decide +kernel

/-! ### The collapse of section 2.5 -/

/-- Silo 20 with C-101 to C-111, silo 7 with C-105, C-120 and C-121, and the next blend serial 9. -/
def silos : Lineage :=
  let known (k : Nat) (refs : Nat) : CollRec := { serial := k, cat := 1, mark := false, refs := refs, info := none }
  let l : Lineage :=
    { colls := (List.range 11).map (fun k => (k, known (k + 101) (if k = 4 then 2 else 1))) ++
        [(11, known 120 1), (12, known 121 1)]
      blendNext := 9 }
  (l.setVessel 20 { kind := .store, capacity := 2000000, state := .holding, cat := some 1,
                    list := (List.range 11).map (fun k => ⟨.coll (k + 101), 100000⟩) }).setVessel 7
    { kind := .store, capacity := 2000000, state := .holding, cat := some 2,
      list := [⟨.coll 105, 400000⟩, ⟨.coll 120, 300000⟩, ⟨.coll 121, 300000⟩] }

/-- Silo 20 becomes B-9 with the three portions behind it; B-9 has the eleven shares as members, category
1 and count 1; C-105 stands in three lists. -/
theorem test_worked_collapse :
    let l := ((withLin silos).transfer 7 20 50000 0 false).st.lin
    (l.vessel 20).list = [⟨.blend 9, 1100000⟩, ⟨.coll 105, 20000⟩, ⟨.coll 120, 15000⟩, ⟨.coll 121, 15000⟩] ∧
    (l.vessel 20).cat = some 1 ∧
    (l.vessel 7).list = [⟨.coll 105, 380000⟩, ⟨.coll 120, 285000⟩, ⟨.coll 121, 285000⟩] ∧
    l.blends.map (fun b => (b.2.serial, b.2.cat, b.2.refs, b.2.members)) =
      [(9, 1, 1, (silos.vessel 20).list)] ∧
    (l.findColl 105).map (fun c => c.2.refs) = some 3 ∧
    (l.findColl 120).map (fun c => c.2.refs) = some 2 ∧
    (l.findColl 104).map (fun c => c.2.refs) = some 1 := by decide +kernel

/-- The same merge with the Blend Table full: C-121 and C-120, in this order, are folded into U-0. -/
theorem test_worked_truncation :
    truncateList (mergeInto (silos.vessel 20).list
      [⟨.coll 105, 20000⟩, ⟨.coll 120, 15000⟩, ⟨.coll 121, 15000⟩]) =
    ((List.range 11).map (fun k => ⟨.coll (k + 101), if k = 4 then 120000 else 100000⟩) ++
        [⟨.unknown, 30000⟩], [⟨.coll 121, 15000⟩, ⟨.coll 120, 15000⟩]) := by decide +kernel

theorem test_meets_manual : 63 < 64 ∧ ¬ (1000000000 < 1000000000) ∧
    plant.checkManual 0 1 1000000000 = .done ∧ plant.checkManual 0 2 1 = .busy ∧
    plant.checkManual 0 1 1000000001 = .badArgument ∧ plant.checkManual 5 1 1 = .badArgument ∧
    plant.checkManual 0 3 1 = .badArgument := by decide +kernel

/-- A write of one new collection. -/
def writeOf (v n : Nat) : WriteArgs :=
  { vessel := v, cat := 0xFE + n, uncertain := 1, entries := [] }

/-- Each result in turn, with a full Collection Table for TABLE_FULL. -/
theorem test_meets_writes : plant.checkWrite (writeOf 3 1) = .badArgument ∧
    plant.checkWrite (writeOf 2 1) = .busy ∧ plant.checkWrite (writeOf 0 0) = .badArgument ∧
    plant.checkWrite (writeOf 0 1) = .done ∧
    ({ plant with colls := List.replicate 2048 (0, coll 1) }).checkWrite
      { writeOf 0 1 with cat := 7, entries := [⟨⟨1, 9⟩, 7, 1000⟩] } = .tableFull := by decide +kernel

theorem test_meets_cleaning_of_stores_and_bays : (plant.vessel 63).kind = .unconfigured ∧
    plant.isCleaning 2 = true ∧ (plant.vessel 0).state ≠ .cleaning ∧
    (plant.vessel 3).state ≠ .cleaning ∧ (plant.vessel 4).state = .cleaning ∧
    (plant.vessel 0).state = .holding ∧ (plant.vessel 1).state ≠ .holding := by decide +kernel

theorem test_meets_cleaning_of_fillers : (plant.filler 1).state = .idle ∧
    (plant.filler 0).state = .batchOpen ∧ (plant.filler 0).ring = [] ++ [batch0] ∧
    (plant.filler 2).state = .cleaning ∧ (plant.filler 1).state ≠ .cleaning := by decide +kernel

/-! ## Intake bays -/

/-- An item for the bay of index 7. -/
def item (tanker comp : Nat) : ManifestItem :=
  { bay := 7, tanker := tanker, comp := comp, farm := 16777215, vol := 1000000000, cat := 7,
    sample := none, collTime := none }

theorem test_meets_manifest_refusals : plant.bayVessel 0 = none ∧ plant.bayVessel 7 = some 3 ∧
    (item 65536 1).valid = false ∧ (item 65535 15).valid = true ∧
    plant.bayVessel 1 = some 4 ∧ plant.isCleaning 4 = true ∧ plant.isCleaning 3 = false ∧
    1000000000 < (plant.ring 7).content + (item 1 1).vol := by decide +kernel

theorem test_meets_manifest_slots :
    ring1.matching 1 1 = some 0 ∧ (ring1.slot 0).shares.length < 12 ∧
    ring1.matching 9 9 = none ∧ ring1.occupied.length < 6 ∧
    ({ ring1 with slots := Vector.replicate 6 (slot1 .loaded 1) }).occupied.length = 6 ∧
    12 ≤ (({ ring1 with slots := Vector.replicate 6 { slot1 .loaded 1 with
      shares := List.replicate 12 ⟨.unknown, 1, 1⟩ } }).slot 0).shares.length ∧
    2048 ≤ (List.replicate 2048 (0, coll 1)).length := by decide +kernel

theorem test_meets_manifest_admission : ({ item 9 9 with vol := 5 }).valid = true ∧
    plant.colls.length < 2048 ∧ (plant.ring 7).content + 5 ≤ 1000000000 ∧
    (slotsFrom ring1.fill).find? (fun j => (ring1.slot j).tag == .empty) = some 2 ∧
    plant.ring 7 = ring1 := by decide +kernel

theorem test_meets_compartments : plant.bayVessel 0 = none ∧ plant.bayVessel 7 = some 3 ∧
    (plant.ring 7).matching 1 1 = some 0 ∧ ((plant.ring 7).slot 0).tag = .discharging ∧
    (plant.ring 7).matching 1 2 = some 1 ∧ ((plant.ring 7).slot 1).tag = .loaded ∧
    (plant.ring 7).matching 9 9 = none ∧ (plant.ring 7).discharging = some 0 ∧
    (plant.ring 1).discharging = none ∧ plant.bayVessel 1 = some 4 := by decide +kernel

/-! ## Fillers and batches -/

theorem test_meets_batch_open : plant.fillerVessel 7 = none ∧ catOfByte 8 = none ∧
    plant.fillerVessel 2 = some 7 ∧ catOfByte 0xFF = some none ∧ (plant.filler 2).state = .cleaning ∧
    plant.fillerVessel 0 = some 5 ∧ (plant.filler 0).state = .batchOpen ∧ (plant.filler 0).ring ≠ [] ∧
    (plant.filler 0).seq ≠ 100000 ∧ ({ openFiller with seq := 100000 }).seq = 100000 := by
  decide +kernel

/-- The port of a coder with its link down, with its queue full, and with its last place free. -/
theorem test_meets_notices : ({} : PortState).linkUp = false ∧
    8 ≤ ({ portUp with reservations := 8 }).inj.length + ({ portUp with reservations := 8 }).reservations ∧
    ({ portUp with reservations := 7 }).inj.length + ({ portUp with reservations := 7 }).reservations < 8 ∧
    (List.replicate 8 batch0).length = 8 := by decide

theorem test_meets_batch_close : plant.fillerVessel 7 = none ∧ plant.fillerVessel 1 = some 6 ∧
    (plant.filler 1).state ≠ .batchOpen ∧ (plant.filler 0).ring = [] ++ [batch0] ∧
    (plant.filler 0).openBatch = some batch0 ∧ batch0.serial = 1 ∧
    (plant.filler 0).lastFlow.le ⟨0, 0, 0⟩ = true ∧ (⟨0, 0, 1⟩ : TimeStamp).le ⟨0, 0, 0⟩ = false := by
  decide +kernel

/-- A forward step of 2^31 - 1 and a backward one of 2^31. -/
theorem test_meets_cartons : plant.fillerVessel 0 ≠ none ∧ plant.fillerVessel 7 = none ∧
    (plant.filler 0).seen = false ∧ batch0.firstSerial = none ∧
    ({ batch0 with firstSerial := some 1 }).firstSerial ≠ none ∧
    (2147483647 + 2 ^ 32 - 0) % 2 ^ 32 < 2 ^ 31 ∧ 2 ^ 31 ≤ (2147483648 + 2 ^ 32 - 0) % 2 ^ 32 := by
  decide +kernel

/-- The nine bytes of the batch's code, and nine bytes of no decimal digits. -/
def codeBytes : List Byte := [0x04, 0x17, 0x03, 0x20, 0x15, 0x30, 0x00, 0x21, 0x96]

theorem test_meets_dispatch : plant.resolveCode codeBytes = some (0, batch0) ∧
    plant.resolveCode (List.replicate 9 0xFF) = none ∧
    plant.resolveCode (List.replicate 9 0x99) = none ∧
    plant.resolveCode (List.replicate 9 0x00) = none ∧
    codeBytes.foldl (fun x b => x * 100 + b.toNat / 16 * 10 + b.toNat % 16) 0 = batch0.code := by
  decide +kernel

/-! ## Suspect marking and holds -/

/-- U-0, a serial above its range, a key that no record carries; a sample and a farm that none carries; a
full Farm Suspect List. -/
theorem test_meets_suspect_refusals :
    (EntryVal.suspectKey ⟨0, 0⟩).markOf = some (false, .key ⟨0, 0⟩) ∧
    ¬ ((0 : Nat) = 1 ∨ (0 : Nat) = 2) ∧ ¬ ((268435456 : Nat) ≤ 268435455) ∧
    (∀ c ∈ plant.colls, c.2.serial ≠ 9) ∧ (∀ c ∈ plant.colls, c.2.info = none) ∧
    (EntryVal.releaseFarm 3).markOf = some (true, .farm 3) ∧ 3 ∉ plant.farms ∧
    ¬ ((16777216 : Nat) ≤ 16777215) ∧ 16 ≤ (List.range 16).length := by decide +kernel

/-- A collection with a sample id and a farm. -/
def collFull : CollRec :=
  { coll 3 with info := some { farm := 8, tanker := 1, comp := 1, manifestVol := 5, sample := some 6,
                               collTime := none, bay := 7, intakeTime := ⟨0, 0, 0⟩ } }

theorem test_meets_sweep : (EntryVal.suspectKey ⟨2, 1⟩).markOf = some (false, .key ⟨2, 1⟩) ∧
    (plant.blends.map (fun b => b.2.serial)).Nodup ∧
    (∃ b ∈ plant.blends, b.2.serial = 1) ∧ (∃ c ∈ plant.colls, c.2.serial = 2) ∧
    collFull.info.bind CollInfo.sample = some 6 ∧ collFull.info.map CollInfo.farm = some 8 ∧
    (16777215 : Nat) ≤ 16777215 ∧ plant.farms.length < 16 := by decide +kernel

/-- SUSPECT_KEY of the collection under a blend flags the blend in the first pass; the second ends the
sweep. -/
theorem test_worked_sweep :
    (plant.marks false (.key ⟨1, 2⟩)).lin.sweep false none =
      ({ plant with
          colls := [(0, coll 1), (1, { coll 2 with mark := true })]
          blends := [(0, { blend1 with derived := true })] }, 2) := by decide +kernel

/-- A blend at a lower index than its member: the flag of the member is set behind it in the first pass,
its own in the second, and the third ends the sweep. -/
theorem test_worked_backward_sweep :
    let upper : BlendRec :=
      { blend1 with serial := 5, info := some { created := ⟨0, 0, 0⟩, vessel := 0,
                                                members := [⟨.blend 1, 10⟩] } }
    let l := { plant with blends := [(0, upper), (1, blend1)] }
    ((l.marks false (.key ⟨1, 2⟩)).lin.sweep false none).2 = 3 := by decide +kernel

theorem test_meets_hold_release :
    Taken (taking plant (.holdRelease 0xFD)) (takenOf (.holdRelease 0xFD)) ∧
    Taken (taking plant (.holdRelease 8)) (takenOf (.holdRelease 8)) ∧ 7 < 8 :=
  ⟨takes _ _, takes _ _, by decide⟩

end Sys2Proof.Tests
end

/-! The VALVE entry (R80, R84, R85), O32: what one meter's re-resolution changes and writes, then that of
several meters, of which none bears on another, then the entry's operation. -/

namespace Sys2Proof.Machine

open Sys2Proof

/-! ## Routes resolved again, without the journal -/

/-- A meter's resolution has another source or destination than its current route (R84). -/
def Lineage.moves (l : Lineage) (m : Nat) : Bool :=
  decide ((l.meter m).route.map Route.ends ≠ (l.resolve m).map Route.ends)

/-- A meter's re-resolution closes a segment that carried volume (R84, R88). -/
def Lineage.endsSegment (l : Lineage) (m : Nat) : Bool := l.moves m && (l.meter m).seg.vol != 0

/-- A meter after its re-resolution: its route is the resolution, and its segment is new where that moves
(R84, R86). -/
def Lineage.rerouted (l : Lineage) (now : TimeStamp) (m : Nat) : Meter :=
  if l.moves m then { l.meter m with route := l.resolve m, seg := { start := now } }
  else { l.meter m with route := l.resolve m }

/-- The lineage state after the re-resolution of some meters. -/
def Lineage.reroute (l : Lineage) (now : TimeStamp) (ms : List Nat) : Lineage :=
  { l with meters := l.meters.mapIdx (fun m x => if m ∈ ms then l.rerouted now m else x) }

/-- The record of a meter's segment closed because its route changes (R88). -/
def Lineage.routeRecord (l : Lineage) (now : TimeStamp) (m : Nat) : Payload :=
  .segment
    { meter := m, route := (l.meter m).route, start := (l.meter m).seg.start, stop := now,
      vol := (l.meter m).seg.vol, flags := (l.meter m).seg.flags, reason := .route }

/-- The records that the re-resolution of some meters writes: one for each that moves and carried volume
(R84, R88). -/
def Lineage.routeRecords (l : Lineage) (now : TimeStamp) (ms : List Nat) : List Payload :=
  (ms.filter l.endsSegment).map (l.routeRecord now)

section reroute

variable (l : Lineage) (now : TimeStamp)

theorem Lineage.moves_iff (m : Nat) :
    l.moves m = true ↔ (l.meter m).route.map Route.ends ≠ (l.resolve m).map Route.ends :=
  decide_eq_true_iff

theorem Lineage.endsSegment_iff (m : Nat) :
    l.endsSegment m = true ↔ (l.meter m).route.map Route.ends ≠ (l.resolve m).map Route.ends ∧
      (l.meter m).seg.vol ≠ 0 := by
  simp only [Lineage.endsSegment, Bool.and_eq_true, Lineage.moves_iff, bne_iff_ne]

/-! A resolution reads the banks and the Valve Image, and no meter. -/

@[simp] theorem Lineage.resolve_setMeter (k : Nat) (x : Meter) (m : Nat) :
    (l.setMeter k x).resolve m = l.resolve m := rfl

@[simp] theorem Lineage.resolve_reroute (ms : List Nat) (m : Nat) :
    (l.reroute now ms).resolve m = l.resolve m := rfl

theorem Lineage.meter_reroute (ms : List Nat) {m : Nat} (hm : m < 48) :
    (l.reroute now ms).meter m = if m ∈ ms then l.rerouted now m else l.meter m := by
  unfold Lineage.reroute Lineage.meter
  rw [vget_mapIdx (d := {}) (h := hm)]

theorem Lineage.reroute_nil : l.reroute now [] = l := by
  have h : l.meters.mapIdx (fun m x => if m ∈ [] then l.rerouted now m else x) = l.meters :=
    vec_ext _ {} _ fun i hi => by rw [vget_mapIdx (d := {}) (h := hi)]; simp
  unfold Lineage.reroute
  rw [h]

variable {l} {m k : Nat}

theorem Lineage.moves_setMeter_ne (h : m ≠ k) (x : Meter) : (l.setMeter m x).moves k = l.moves k := by
  simp only [Lineage.moves, Lineage.setMeter_ne h, Lineage.resolve_setMeter]

theorem Lineage.endsSegment_setMeter_ne (h : m ≠ k) (x : Meter) :
    (l.setMeter m x).endsSegment k = l.endsSegment k := by
  simp only [Lineage.endsSegment, Lineage.moves_setMeter_ne h, Lineage.setMeter_ne h]

theorem Lineage.rerouted_setMeter_ne (h : m ≠ k) (x : Meter) :
    (l.setMeter m x).rerouted now k = l.rerouted now k := by
  simp only [Lineage.rerouted, Lineage.moves_setMeter_ne h, Lineage.setMeter_ne h,
    Lineage.resolve_setMeter]

theorem Lineage.routeRecord_setMeter_ne (h : m ≠ k) (x : Meter) :
    (l.setMeter m x).routeRecord now k = l.routeRecord now k := by
  simp only [Lineage.routeRecord, Lineage.setMeter_ne h]

variable {ms : List Nat}

/-- Rerouting the first meter and then the others is rerouting all of them. -/
theorem Lineage.reroute_cons (h : m ∉ ms) :
    (l.setMeter m (l.rerouted now m)).reroute now ms = l.reroute now (m :: ms) := by
  have e : (l.setMeter m (l.rerouted now m)).meters.mapIdx
        (fun i x => if i ∈ ms then (l.setMeter m (l.rerouted now m)).rerouted now i else x) =
      l.meters.mapIdx (fun i x => if i ∈ m :: ms then l.rerouted now i else x) := by
    refine vec_ext _ {} _ fun i hi => ?_
    rw [vget_mapIdx (d := {}) (h := hi), vget_mapIdx (d := {}) (h := hi), Lineage.setMeter_meters]
    by_cases hmi : m = i
    · subst hmi
      simp [h, vget_vset, hi]
    · simp [vget_vset_ne _ _ _ _ _ hmi, Lineage.rerouted_setMeter_ne now hmi, Ne.symm hmi]
  unfold Lineage.reroute
  rw [e]
  rfl

theorem Lineage.routeRecords_singleton (m : Nat) :
    l.routeRecords now [m] =
      if l.endsSegment m then [l.routeRecord now m] else [] := by
  simp only [Lineage.routeRecords, List.filter_cons, List.filter_nil]
  split <;> rfl

/-- The records of several meters are those of the first and then those of the others, which the first
one's change leaves as they are. -/
theorem Lineage.routeRecords_cons (h : m ∉ ms) (x : Meter) :
    l.routeRecords now (m :: ms) =
      l.routeRecords now [m] ++ (l.setMeter m x).routeRecords now ms := by
  have hne : ∀ k ∈ ms, m ≠ k := fun k hk e => h (e ▸ hk)
  have hrest : (l.setMeter m x).routeRecords now ms = l.routeRecords now ms := by
    unfold Lineage.routeRecords
    rw [List.filter_congr fun k hk => Lineage.endsSegment_setMeter_ne (hne k hk) x]
    exact List.map_congr_left fun k hk =>
      Lineage.routeRecord_setMeter_ne now (hne k (List.mem_of_mem_filter hk)) x
  rw [hrest]
  simp only [Lineage.routeRecords, ← List.map_append, ← List.filter_append, List.singleton_append]

end reroute

/-! ## A cluster set -/

/-- The lineage state with a cluster of the Valve Image set, seen (R80). -/
def Lineage.setCluster (l : Lineage) (c : Nat) (v : Word16) : Lineage :=
  { l with clusters := vset l.clusters c ⟨v, true⟩ }

/-- The lineage state after a VALVE entry: every meter that depends on the cluster is rerouted (R85). -/
def Lineage.valveSet (l : Lineage) (now : TimeStamp) (c : Nat) (v : Word16) : Lineage :=
  (l.setCluster c v).reroute now ((List.range 48).filter (l.dependsOn c))

section valve

variable (l : Lineage) (now : TimeStamp) (c : Nat) (v : Word16)

@[simp] theorem Lineage.meter_setCluster (m : Nat) : (l.setCluster c v).meter m = l.meter m := rfl

@[simp] theorem Lineage.resolve_valveSet (m : Nat) :
    (l.valveSet now c v).resolve m = (l.setCluster c v).resolve m := Lineage.resolve_reroute _ _ _ m

/-- A meter after a VALVE entry, with the resolution on what the entry left. -/
theorem Lineage.meter_valveSet {m : Nat} (hm : m < 48) :
    (l.valveSet now c v).meter m =
      if l.dependsOn c m = true then
        (if (l.meter m).route.map Route.ends ≠ ((l.valveSet now c v).resolve m).map Route.ends then
          { l.meter m with
            route := (l.valveSet now c v).resolve m, seg := { start := now, vol := 0, flags := {} } }
        else { l.meter m with route := (l.valveSet now c v).resolve m })
      else l.meter m := by
  rw [Lineage.resolve_valveSet, Lineage.valveSet, Lineage.meter_reroute _ _ _ hm]
  simp only [List.mem_filter, List.mem_range, hm, true_and, Lineage.rerouted, Lineage.moves_iff,
    Lineage.meter_setCluster]

/-- The records of a VALVE entry, in one pass over the meters. -/
theorem Lineage.routeRecords_valve :
    (l.setCluster c v).routeRecords now ((List.range 48).filter (l.dependsOn c)) =
      ((List.range 48).filter (fun m => decide (l.dependsOn c m = true ∧
        (l.meter m).route.map Route.ends ≠ ((l.valveSet now c v).resolve m).map Route.ends ∧
        (l.meter m).seg.vol ≠ 0))).map (l.routeRecord now) := by
  unfold Lineage.routeRecords
  rw [List.filter_filter]
  refine congrArg₂ List.map rfl (List.filter_congr fun m _ => ?_)
  rw [Bool.eq_iff_iff, Bool.and_eq_true, Lineage.endsSegment_iff, decide_eq_true_iff]
  exact and_comm

end valve

/-! ## The operations -/

/-- Changing a meter twice is one change. -/
theorem Lineage.updMeter_updMeter {l : Lineage} {m : Nat} (hm : m < 48) (f g : Meter → Meter) :
    (l.updMeter m f).updMeter m g = l.setMeter m (g (f (l.meter m))) := by
  unfold Lineage.updMeter
  rw [Lineage.setMeter_same hm]
  simp only [Lineage.setMeter, vset_vset]

/-- A close for a changed route writes the meter's record, or nothing where no volume was carried (R88). -/
theorem State.closeSegment_route (s : State) (tag m : Nat) :
    s.closeSegment m .route tag =
      { s with
        jrn := s.jrn.writeAll s.now tag
          (if (s.lin.meter m).seg.vol ≠ 0 then [s.lin.routeRecord s.now m] else []) } := by
  by_cases hv : (s.lin.meter m).seg.vol = 0
  · simp only [State.closeSegment, hv, beq_self_eq_true, if_true, ne_eq, not_true, if_false,
      Journal.writeAll_nil]
  · simp only [State.closeSegment, hv, beq_iff_eq, if_false, ne_eq, not_false_iff, if_true]
    rfl

/-- The re-resolution of one meter, in one equation (R84). -/
theorem State.resolveMeter_eq (s : State) (tag : Nat) {m : Nat} (hm : m < 48) :
    s.resolveMeter tag m =
      { s with
        lin := s.lin.setMeter m (s.lin.rerouted s.now m)
        jrn := s.jrn.writeAll s.now tag (s.lin.routeRecords s.now [m]) } := by
  unfold State.resolveMeter
  rw [Lineage.routeRecords_singleton, Lineage.endsSegment, Lineage.rerouted]
  by_cases hmv : s.lin.moves m = true
  · have hne := (s.lin.moves_iff m).mp hmv
    simp only [beq_iff_eq, hne, if_false, hmv, if_true, Bool.true_and, bne_iff_ne,
      State.openSegment, State.setLin_lin, State.closeSegment_route, Lineage.updMeter_updMeter hm]
    rfl
  · have heq := not_not.mp (mt (s.lin.moves_iff m).mpr hmv)
    simp only [beq_iff_eq, heq, if_true, hmv]
    rfl

/-- The re-resolution of meters one after another is that of all at once: none bears on another. -/
theorem State.foldl_resolveMeter (tag : Nat) (ms : List Nat) (s : State) (hn : ms.Nodup)
    (hlt : ∀ m ∈ ms, m < 48) :
    ms.foldl (State.resolveMeter · tag) s =
      { s with
        lin := s.lin.reroute s.now ms
        jrn := s.jrn.writeAll s.now tag (s.lin.routeRecords s.now ms) } := by
  induction ms generalizing s with
  | nil => rw [Lineage.reroute_nil]; rfl
  | cons m ms ih =>
    obtain ⟨hm, hn'⟩ := List.nodup_cons.mp hn
    obtain ⟨hm48, hlt'⟩ := List.forall_mem_cons.mp hlt
    rw [List.foldl_cons, ih _ hn' hlt', State.resolveMeter_eq s tag hm48, ← Lineage.reroute_cons s.now hm,
      Lineage.routeRecords_cons s.now hm (s.lin.rerouted s.now m), Journal.writeAll_append]
    rfl

/-- A VALVE entry's operation, in one equation. Which meters depend on the cluster is a matter of the
active bank alone, so they are the same before the cluster is set. -/
theorem State.opValve_eq (s : State) (tag c : Nat) (v : Word16) :
    s.opValve tag c v =
      { s with
        lin := s.lin.valveSet s.now c v
        jrn := s.jrn.writeAll s.now tag ((s.lin.setCluster c v).routeRecords s.now
          ((List.range 48).filter (s.lin.dependsOn c))) } :=
  State.foldl_resolveMeter tag _ _ (List.nodup_range.filter _)
    fun _ hm => List.mem_range.mp (List.mem_of_mem_filter hm)

/-- Settles O32: the operation's equation gives the new lineage state and its records, and the end of an
operation adds the rest. -/
theorem valveEntryResolvesDependentMeters : Obligations.ValveEntryResolvesDependentMeters := by
  intro s e c v ht hv _
  have hrow : e.val.row = .valveEntry := by rw [hv]; rfl
  have hop : e.operation s = { st := s.opValve e.tag c v } := by simp only [TakenEntry.operation, hv]
  rw [s.opValve_eq, Lineage.routeRecords_valve s.lin s.now] at hop
  obtain ⟨t, hexec, hres⟩ := exec_row_writes ht _ (congrArg (fun o => o.st.jrn) hop)
  rw [hrow] at hexec
  rw [hop] at hres
  exact ⟨t, s.lin.valveSet s.now c v, hexec, hres, rfl, rfl,
    fun m hm => s.lin.meter_valveSet s.now c v hm⟩

end Sys2Proof.Machine

/-! The CARTON entry (R115), O57: what a carton serial does to the open batch, case by case, then to the
filler record that counts it, then the entry's operation. -/

namespace Sys2Proof.Machine

open Sys2Proof

/-! ## The open batch changed -/

theorem modifyLast_concat (g : Batch → Batch) (b : Batch) :
    ∀ older : List Batch, modifyLast g (older ++ [b]) = older ++ [g b]
  | [] => rfl
  | [_] => rfl
  | a :: c :: older => congrArg (a :: ·) (modifyLast_concat g b (c :: older))

section batch

variable {x : Filler} (g : Batch → Batch)

theorem Filler.modifyOpen_of_not_open (h : x.state ≠ .batchOpen) : x.modifyOpen g = x := by
  simp only [Filler.modifyOpen, beq_iff_eq, h, if_false]

theorem Filler.modifyOpen_of_open (h : x.state = .batchOpen) {older : List Batch} {b : Batch}
    (hr : x.ring = older ++ [b]) : x.modifyOpen g = { x with ring := older ++ [g b] } := by
  simp only [Filler.modifyOpen, h, beq_self_eq_true, if_true, hr, modifyLast_concat]

end batch

/-! ## A carton serial counted (R115) -/

section carton

variable {x : Filler} {b : Batch} {n : Nat}

theorem cartonDelta_forward {last : Nat} (h : (n + 2 ^ 32 - last) % 2 ^ 32 < 2 ^ 31) :
    cartonDelta last n = some ((n + 2 ^ 32 - last) % 2 ^ 32) := if_pos h

theorem cartonDelta_backward {last : Nat} (h : 2 ^ 31 ≤ (n + 2 ^ 32 - last) % 2 ^ 32) :
    cartonDelta last n = none := if_neg h.not_gt

theorem Filler.countCartons_first (hs : x.seen = false) (hb : b.firstSerial = none) :
    x.countCartons n b = { b with firstSerial := some ((n + 1) % 2 ^ 32) } := by
  simp only [Filler.countCartons, hs, hb, Option.isNone_none, if_true, Bool.false_eq_true, if_false]

theorem Filler.countCartons_first_kept (hs : x.seen = false) (hb : b.firstSerial ≠ none) :
    x.countCartons n b = b := by
  simp only [Filler.countCartons, hs, Option.isNone_iff_eq_none, hb, Bool.false_eq_true, if_false]

theorem Filler.countCartons_forward (hs : x.seen = true)
    (hd : (n + 2 ^ 32 - x.lastCarton) % 2 ^ 32 < 2 ^ 31) :
    x.countCartons n b =
      { b with produced := grow32 b.produced ((n + 2 ^ 32 - x.lastCarton) % 2 ^ 32) } := by
  simp only [Filler.countCartons, hs, if_true, cartonDelta_forward hd]

theorem Filler.countCartons_backward (hs : x.seen = true)
    (hd : 2 ^ 31 ≤ (n + 2 ^ 32 - x.lastCarton) % 2 ^ 32) : x.countCartons n b = b := by
  simp only [Filler.countCartons, hs, if_true, cartonDelta_backward hd]

end carton

/-- A filler record after a carton serial: the serial is counted against the open batch and becomes the
reference, seen. -/
def Filler.readCarton (x : Filler) (n : Nat) : Filler :=
  { x.modifyOpen (x.countCartons n) with lastCarton := n, seen := true }

section read

variable {x : Filler} (n : Nat)

theorem Filler.readCarton_of_not_open (h : x.state ≠ .batchOpen) :
    x.readCarton n = { x with lastCarton := n, seen := true } := by
  rw [Filler.readCarton, Filler.modifyOpen_of_not_open _ h]

theorem Filler.readCarton_of_open (h : x.state = .batchOpen) {older : List Batch} {b : Batch}
    (hr : x.ring = older ++ [b]) :
    x.readCarton n =
      { x with lastCarton := n, seen := true, ring := older ++ [x.countCartons n b] } := by
  rw [Filler.readCarton, Filler.modifyOpen_of_open _ h hr]

end read

/-! ## The operation -/

theorem State.opCarton_of_no_filler {s : State} {f : Nat} (h : s.lin.fillerVessel f = none) (n : Nat) :
    s.opCarton f n = s := by
  simp only [State.opCarton, h]

theorem State.opCarton_of_filler {s : State} {f : Nat} (h : s.lin.fillerVessel f ≠ none) (n : Nat) :
    s.opCarton f n = s.setLin (s.lin.setFiller f ((s.lin.filler f).readCarton n)) := by
  obtain ⟨v, hv⟩ := Option.ne_none_iff_exists'.mp h
  simp only [State.opCarton, hv, Filler.readCarton]

/-- A CARTON entry whose operation changes the lineage state alone ends with no record. -/
theorem carton_result {s : State} {e : TakenEntry} {f n : Nat} (ht : Taken s e)
    (hv : e.val = .carton f n) {l : Lineage} (hl : s.opCarton f n = s.setLin l) :
    ∃ t, exec .cartonEntry s = .next t ∧ OpResult s t e.tag l s.hold [] [] := by
  have hrow : e.val.row = .cartonEntry := by rw [hv]; rfl
  have hop : e.operation s = { st := s.setLin l } := by simp only [TakenEntry.operation, hv, hl]
  have hres := exec_row_writes ht [] (congrArg (fun o => o.st.jrn) hop)
  rwa [hrow, hop] at hres

/-- Settles O57: the entry's result is that of its operation, which counts the serial on the filler record
of a FILLER's index; the open batch is then one of the four cases of R115. -/
theorem cartonsCountForwardSteps : Obligations.CartonsCountForwardSteps := by
  intro s e f n ht hv x ended read d
  refine ⟨fun hnone => carton_result ht hv (s.opCarton_of_no_filler hnone n), fun hsome => ?_⟩
  have hread : ended (s.lin.setFiller f (x.readCarton n)) :=
    carton_result ht hv (State.opCarton_of_filler hsome n)
  refine ⟨fun hclosed => ?closed, fun hopen older b hring => ?opened⟩
  case closed => rwa [Filler.readCarton_of_not_open n hclosed] at hread
  case opened =>
    have counted : ∀ c, x.countCartons n b = c →
        ended (s.lin.setFiller f { read with ring := older ++ [c] }) := by
      rintro _ rfl
      rwa [Filler.readCarton_of_open n hopen hring] at hread
    exact ⟨fun hseen hfirst => counted _ (Filler.countCartons_first hseen hfirst),
      fun hseen hfirst => counted _ (Filler.countCartons_first_kept hseen hfirst),
      fun hseen hd => counted _ (Filler.countCartons_forward hseen hd),
      fun hseen hd => counted _ (Filler.countCartons_backward hseen hd)⟩

end Sys2Proof.Machine

/-! The GAP entry (R161), O41: what a cause of R12 does to one vessel, then to each of a list, none
of which changes a kind or a filler index; what a raise does after that; then the entry's operation. -/

namespace Sys2Proof.Machine

open Sys2Proof

/-! ## The open batch changed twice -/

theorem modifyLast_modifyLast (g k : Batch → Batch) :
    ∀ bs : List Batch, modifyLast k (modifyLast g bs) = modifyLast (k ∘ g) bs
  | [] => rfl
  | [_] => rfl
  | [_, _] => rfl
  | a :: b :: c :: t => congrArg (a :: ·) (modifyLast_modifyLast g k (b :: c :: t))

theorem Filler.modifyOpen_modifyOpen (x : Filler) (g k : Batch → Batch) :
    (x.modifyOpen g).modifyOpen k = x.modifyOpen (k ∘ g) := by
  by_cases h : x.state = .batchOpen
  · simp only [Filler.modifyOpen, h, beq_self_eq_true, if_true, modifyLast_modifyLast]
  · simp only [Filler.modifyOpen_of_not_open _ h]

/-! ## One vessel made uncertain (R12) -/

/-- A vessel's own entry after a cause of R12: the flag of a STORE or a BAY is set. -/
def Vessel.doubted (x : Vessel) : Vessel :=
  { x with uncertain := if x.kind = .store ∨ x.kind = .bay then true else x.uncertain }

/-- A filler record after a cause of R12: the flag of its open batch is set. -/
def Filler.doubted (x : Filler) : Filler := x.modifyOpen (fun b => { b with uncertain := true })

@[simp] theorem Vessel.doubted_kind (x : Vessel) : x.doubted.kind = x.kind := rfl
@[simp] theorem Vessel.doubted_fillerIndex (x : Vessel) : x.doubted.fillerIndex = x.fillerIndex := rfl

theorem Vessel.doubted_of_own {x : Vessel} (h : x.kind = .store ∨ x.kind = .bay) :
    x.doubted = { x with uncertain := true } := by
  simp only [Vessel.doubted, h, if_true]

theorem Vessel.doubted_of_not_own {x : Vessel} (h : ¬ (x.kind = .store ∨ x.kind = .bay)) :
    x.doubted = x := by
  simp only [Vessel.doubted, h, if_false]

@[simp] theorem Vessel.doubted_doubted (x : Vessel) : x.doubted.doubted = x.doubted := by
  by_cases h : x.kind = .store ∨ x.kind = .bay
  · rw [Vessel.doubted_of_own (x := x.doubted) h, Vessel.doubted_of_own h]
  · rw [Vessel.doubted_of_not_own h, Vessel.doubted_of_not_own h]

@[simp] theorem Filler.doubted_doubted (x : Filler) : x.doubted.doubted = x.doubted :=
  x.modifyOpen_modifyOpen _ _

section uncertain

variable (l : Lineage)

theorem Lineage.namedFiller_iff (v f : Nat) :
    l.namedFiller v = some f ↔ (l.vessel v).kind = .filler ∧ (l.vessel v).fillerIndex = f := by
  by_cases h : (l.vessel v).kind = .filler <;> simp [Lineage.namedFiller, h]

theorem Lineage.namedFiller_eq_none {v : Nat} (h : (l.vessel v).kind ≠ .filler) :
    l.namedFiller v = none := by
  simp only [Lineage.namedFiller, beq_iff_eq, h, if_false]

/-- On a STORE or a BAY a cause of R12 sets the vessel's own entry. -/
theorem Lineage.setUncertain_own {v : Nat} (h : (l.vessel v).kind = .store ∨ (l.vessel v).kind = .bay) :
    l.setUncertain v = l.setVessel v (l.vessel v).doubted := by
  rw [Vessel.doubted_of_own h]
  obtain h | h := h <;> simp only [Lineage.setUncertain, h]

theorem Lineage.setUncertain_filler {v f : Nat} (h : l.namedFiller v = some f) :
    l.setUncertain v = l.setFiller f (l.filler f).doubted := by
  obtain ⟨hk, rfl⟩ := (l.namedFiller_iff v f).mp h
  simp only [Lineage.setUncertain, hk]
  rfl

theorem Lineage.setUncertain_unconfigured {v : Nat} (h : (l.vessel v).kind = .unconfigured) :
    l.setUncertain v = l := by
  simp only [Lineage.setUncertain, h]

/-- A cause of R12 meets a vessel with a flag of its own, a FILLER, or no vessel. -/
theorem Lineage.uncertain_cases (v : Nat) :
    ((l.vessel v).kind = .store ∨ (l.vessel v).kind = .bay) ∨ (∃ f, l.namedFiller v = some f) ∨
      (l.vessel v).kind = .unconfigured := by
  simp only [Lineage.namedFiller_iff]
  cases (l.vessel v).kind <;> simp

/-- A cause of R12 on a vessel acts on that vessel's own entry and on no other. -/
theorem Lineage.vessel_setUncertain (v u : Nat) :
    (l.setUncertain v).vessel u = if u = v then (l.vessel u).doubted else l.vessel u := by
  by_cases hown : (l.vessel v).kind = .store ∨ (l.vessel v).kind = .bay
  · rw [l.setUncertain_own hown]
    by_cases huv : u = v
    · subst huv
      have hu : u < 64 := l.vessel_lt (by rintro h; simp [h] at hown)
      rw [Lineage.setVessel_same hu, if_pos rfl]
    · rw [Lineage.setVessel_ne (Ne.symm huv), if_neg huv]
  · have hkept : (l.setUncertain v).vessel u = l.vessel u := by
      obtain h | ⟨f, hf⟩ | hnone := l.uncertain_cases v
      · exact absurd h hown
      · rw [l.setUncertain_filler hf]; rfl
      · rw [l.setUncertain_unconfigured hnone]
    rw [hkept]
    split
    next huv => exact (Vessel.doubted_of_not_own (by rwa [huv])).symm
    next => rfl

/-- It acts on the filler record that the vessel names and on no other. -/
theorem Lineage.filler_setUncertain (v : Nat) {f : Nat} (hf : f < 8) :
    (l.setUncertain v).filler f =
      if l.namedFiller v = some f then (l.filler f).doubted else l.filler f := by
  obtain hown | ⟨g, hg⟩ | hnone := l.uncertain_cases v
  · have hno : l.namedFiller v = none := l.namedFiller_eq_none (by rintro h; simp [h] at hown)
    rw [l.setUncertain_own hown, hno]
    rfl
  · rw [l.setUncertain_filler hg, hg]
    by_cases hgf : g = f
    · subst hgf
      rw [Lineage.setFiller_same hf, if_pos rfl]
    · rw [Lineage.setFiller_ne hgf, if_neg (by simpa using hgf)]
  · have hno : l.namedFiller v = none := l.namedFiller_eq_none (by simp [hnone])
    rw [l.setUncertain_unconfigured hnone, hno]
    rfl

theorem Lineage.setUncertain_others (v : Nat) :
    l.setUncertain v =
      { l with vessels := (l.setUncertain v).vessels, fillers := (l.setUncertain v).fillers } := by
  obtain hown | ⟨f, hf⟩ | hnone := l.uncertain_cases v
  · rw [l.setUncertain_own hown]; rfl
  · rw [l.setUncertain_filler hf]; rfl
  · rw [l.setUncertain_unconfigured hnone]

@[simp] theorem Lineage.namedFiller_setUncertain (v u : Nat) :
    (l.setUncertain v).namedFiller u = l.namedFiller u := by
  simp only [Lineage.namedFiller, Lineage.vessel_setUncertain]
  split <;> rfl

end uncertain

/-! ## Vessels made uncertain one after another -/

theorem Lineage.setUncertainAll_cons (l : Lineage) (v : Nat) (vs : List Nat) :
    l.setUncertainAll (v :: vs) = (l.setUncertain v).setUncertainAll vs := rfl

theorem Lineage.vessel_setUncertainAll (u : Nat) (vs : List Nat) (l : Lineage) :
    (l.setUncertainAll vs).vessel u = if u ∈ vs then (l.vessel u).doubted else l.vessel u := by
  induction vs generalizing l with
  | nil => rfl
  | cons v vs ih =>
    rw [Lineage.setUncertainAll_cons, ih, Lineage.vessel_setUncertain]
    by_cases huv : u = v <;> by_cases hu : u ∈ vs <;> simp [huv, hu]

theorem Lineage.filler_setUncertainAll {f : Nat} (hf : f < 8) (vs : List Nat) (l : Lineage) :
    (l.setUncertainAll vs).filler f =
      if ∃ v ∈ vs, l.namedFiller v = some f then (l.filler f).doubted else l.filler f := by
  induction vs generalizing l with
  | nil => simp [Lineage.setUncertainAll]
  | cons v vs ih =>
    rw [Lineage.setUncertainAll_cons, ih, Lineage.filler_setUncertain l v hf]
    simp only [Lineage.namedFiller_setUncertain, List.mem_cons, exists_eq_or_imp]
    by_cases hv : l.namedFiller v = some f
    · simp only [hv, true_or, if_true, Filler.doubted_doubted, ite_self]
    · simp only [hv, false_or, if_false]

theorem Lineage.setUncertainAll_others (vs : List Nat) (l : Lineage) :
    l.setUncertainAll vs =
      { l with
        vessels := (l.setUncertainAll vs).vessels, fillers := (l.setUncertainAll vs).fillers } := by
  induction vs generalizing l with
  | nil => rfl
  | cons v vs ih =>
    rw [Lineage.setUncertainAll_cons, ih, l.setUncertain_others v]

/-- Which vessel carries a filler index is as before: no kind and no index changes. -/
theorem Lineage.fillerVessel_setUncertainAll (l : Lineage) (vs : List Nat) (f : Nat) :
    (l.setUncertainAll vs).fillerVessel f = l.fillerVessel f := by
  unfold Lineage.fillerVessel
  refine congrArg (List.find? · _) (funext fun u => ?_)
  rw [Lineage.vessel_setUncertainAll]
  split <;> rfl

/-! ## Every configured vessel (R161) -/

theorem Lineage.mem_configured (l : Lineage) (v : Nat) :
    v ∈ l.configured ↔ (l.vessel v).kind ≠ .unconfigured := by
  simp only [Lineage.configured, List.mem_filter, List.mem_range, bne_iff_ne, and_iff_right_iff_imp]
  exact Lineage.vessel_lt

/-- Every STORE and every BAY has its flag set, and no other entry of the table changes. -/
theorem Lineage.vessel_setUncertainAll_configured (l : Lineage) (v : Nat) :
    (l.setUncertainAll l.configured).vessel v = (l.vessel v).doubted := by
  rw [Lineage.vessel_setUncertainAll]
  split
  next => rfl
  next hv =>
    rw [l.mem_configured, not_not] at hv
    exact (Vessel.doubted_of_not_own (by simp [hv])).symm

/-- Every filler record that a FILLER names has the flag of its open batch set. -/
theorem Lineage.filler_setUncertainAll_configured (l : Lineage) {v : Nat}
    (hk : (l.vessel v).kind = .filler) (hf : (l.vessel v).fillerIndex < 8) :
    (l.setUncertainAll l.configured).filler (l.vessel v).fillerIndex =
      (l.filler (l.vessel v).fillerIndex).doubted := by
  have hv : v ∈ l.configured := (l.mem_configured v).mpr (by simp [hk])
  rw [Lineage.filler_setUncertainAll hf, if_pos ⟨v, hv, (l.namedFiller_iff v _).mpr ⟨hk, rfl⟩⟩]

/-! ## The raise and the operation -/

/-- A raise on a lineage state in which the same vessels carry the filler indices counts, reports and
latches as it would have before. -/
theorem State.raise_setLin (s : State) (tag : Nat) (filler : Option Nat) (c : CondVals) {l : Lineage}
    (h : ∀ f, l.fillerVessel f = s.lin.fillerVessel f) :
    (s.setLin l).raise tag filler c =
      { s with
        lin := l
        hold := s.raisedHold filler c
        jrn := s.jrn.writeAll s.now tag (s.raisedRecs filler c) } := by
  have htargets : ∀ p, l.latchTargets p filler = s.lin.latchTargets p filler := by
    intro p
    cases p <;> simp only [Lineage.latchTargets, h]
  rw [State.raise_eq]
  simp only [State.conditionRec, State.setLin, htargets, State.raisedHold, State.raisedRecs]
  split <;> rfl

/-- A GAP entry's operation, in one equation. -/
theorem State.opGap_eq (s : State) (tag n : Nat) :
    s.opGap tag n =
      { s with
        lin := s.lin.setUncertainAll s.lin.configured
        hold := s.raisedHold none (.gap n)
        jrn := s.jrn.writeAll s.now tag (s.raisedRecs none (.gap n)) } :=
  s.raise_setLin tag none (.gap n) (s.lin.fillerVessel_setUncertainAll s.lin.configured)

/-- Settles O41: the operation's equation gives the hold unit and the records; what it does to each vessel
and each filler record is that of the causes of R12 on all configured vessels. -/
theorem gapMakesEveryVesselUncertain : Obligations.GapMakesEveryVesselUncertain := by
  intro s e n ht hv
  have hrow : e.val.row = .gapEntry := by rw [hv]; rfl
  have hop : e.operation s = { st := s.opGap e.tag n } := by simp only [TakenEntry.operation, hv]
  rw [s.opGap_eq] at hop
  obtain ⟨t, hexec, hres⟩ := exec_row_writes ht _ (congrArg (fun o => o.st.jrn) hop)
  rw [hrow] at hexec
  rw [hop] at hres
  exact ⟨t, s.lin.setUncertainAll s.lin.configured, hexec, hres,
    fun v _ => s.lin.vessel_setUncertainAll_configured v,
    fun _ _ hk hf => s.lin.filler_setUncertainAll_configured hk hf,
    Lineage.setUncertainAll_others _ _⟩

end Sys2Proof.Machine

/-! Reset and the step, O1, O2, O3: the tables at power-on read entry by entry, then every invariant there. -/

namespace Sys2Proof.Machine

open Sys2Proof

/-- Settles O1: both halves are the two branches of `step`. -/
theorem stepRunsFrontCommandOrIdles : Obligations.StepRunsFrontCommandOrIdles :=
  ⟨fun _ _ _ => rfl, fun s h => by rw [step, h]⟩

/-! ## The tables at power-on -/

theorem mem_replicate_eq {α : Type} {n : Nat} {x y : α} (h : y ∈ (Vector.replicate n x).toList) : y = x := by
  simp only [Vector.toList_replicate, List.mem_replicate] at h
  exact h.2

section reset

theorem reset_vessel (v : Nat) : (({} : Lineage).vessel v) = {} := by
  by_cases h : v < 64 <;> simp [Lineage.vessel, vget, h]

theorem reset_meter (m : Nat) : (({} : Lineage).meter m) = {} := by
  by_cases h : m < 48 <;> simp [Lineage.meter, vget, h]

theorem reset_ring (b : Nat) : (({} : Lineage).ring b) = {} := by
  by_cases h : b < 8 <;> simp [Lineage.ring, vget, h]

theorem reset_slot (k : Nat) : (({} : Ring).slot k) = {} := by
  by_cases h : k < 6 <;> simp [Ring.slot, vget, h]

theorem reset_filler (f : Nat) : (({} : Lineage).filler f) = {} := by
  by_cases h : f < 8 <;> simp [Lineage.filler, vget, h]

theorem reset_activeEntry (i : Nat) : (({} : Lineage).activeEntry i) = {} := by
  by_cases h : i < 128 <;> simp [Lineage.activeEntry, Lineage.bank, vget, h]

/-- With no valid entry in the active bank every resolution is NONE. -/
theorem reset_resolve (m : Nat) : (({} : Lineage).resolve m) = none := by
  have h : ∀ i, (({} : Lineage).activeEntry i).valid = false := fun i => by rw [reset_activeEntry]
  rw [Lineage.resolve, List.find?_eq_none.mpr (fun i _ => by simp only [Lineage.entryHolds, h, Bool.false_and,
    Bool.and_false, Bool.false_eq_true, not_false_iff]), Option.map_none]

theorem reset_merge (a b : Fin 8) : (({} : Lineage).merge (some a) (some b)) = some (min a b) := by
  revert a b
  decide

end reset

/-- Settles O2: RESET answers the power-on state, of which each part is read off; its release is one
update. -/
theorem resetRestoresEverythingAndLatchesStrap : Obligations.ResetRestoresEverythingAndLatchesStrap := by
  refine ⟨fun s => ⟨_, rfl, rfl, rfl, fun p => by cases p <;> rfl, rfl, ?tables, ?overrides, ?valves, rfl, rfl, rfl,
    rfl, rfl, fun v _ => reset_vessel v, reset_merge, fun m _ => reset_meter m, rfl, rfl, rfl, rfl, rfl,
    ?rings, fun c hc => mem_replicate_eq hc, ?banks, rfl, fun f _ => reset_filler f, rfl, ?policy, rfl,
    ?counters, ?holds, ?pins, rfl, rfl⟩, fun strap s => ⟨fun h => ⟨_, ?release, rfl, rfl⟩, fun h => ?kept⟩⟩
  case tables => intro e he; rw [mem_replicate_eq he]; rfl
  case overrides => intro e he; rw [mem_replicate_eq he]
  case valves =>
    intro c
    by_cases h : c < 32 <;> simp [State.reset, Decoder.lastValve, vget, h]
  case rings =>
    intro b _
    change ((({} : Lineage).ring b).occupied = [] ∧ (({} : Lineage).ring b).fill = 0 ∧
      (({} : Lineage).ring b).disch = 0)
    rw [reset_ring]
    exact ⟨by decide, rfl, rfl⟩
  case banks =>
    intro e he
    rcases List.mem_append.mp he with he | he <;> rw [mem_replicate_eq he]
  case policy => change ∀ k, k < 20 → vget defaultPolicy k {} = _; decide
  case counters => intro k hk; exact vget_replicate k 0 1 hk
  case holds => intro i hi; exact ⟨vget_replicate i 0 0 hi, congrArg HoldView.asserted (vget_replicate i ({} : HoldView) {} hi)⟩
  case pins =>
    intro i hi
    have h : vget State.reset.hold.outMap i {} = {} := vget_replicate i ({} : OutEntry) {} hi
    exact ⟨h, by simp only [State.pin, h]; rfl⟩
  case release => simp only [exec, execResetRelease, h, if_true]
  case kept => simp only [exec, execResetRelease, h, Bool.false_eq_true, if_false]

/-- The lineage state of a part without configuration is sound: no list holds a key. -/
theorem lineageSound_reset : LineageSound ({} : Lineage) where
  collSerials := List.nodup_nil
  blendSerials := List.nodup_nil
  collRoom := Nat.zero_le _
  blendRoom := Nat.zero_le _
  collRefs := fun _ h => absurd h List.not_mem_nil
  blendRefs := fun _ h => absurd h List.not_mem_nil
  resident := by
    have h : ({} : Lineage).listedKeys = [] := by decide +kernel
    rw [h]
    exact fun _ h => absurd h List.not_mem_nil
  stores := fun v _ h => by rw [reset_vessel] at h; cases h
  others := fun v _ _ => by rw [reset_vessel]
  batches := fun f _ b h => by rw [reset_filler] at h; cases h
  openBatch := fun f _ h => by rw [reset_filler] at h; cases h
  slots := fun b _ k _ _ => by rw [reset_ring, reset_slot]
  bays := fun b _ => by rw [reset_ring]; decide
  cleaning := fun v _ h => by rw [reset_vessel] at h; cases h
  bayIndices := fun u v _ _ h => by rw [reset_vessel] at h; cases h
  freeRings := fun b _ _ => by rw [reset_ring]; decide
  freeFillers := fun f _ _ => by rw [reset_filler]
  indices := fun v _ => by rw [reset_vessel]; decide
  banks := fun i hi => by
    have h : (vget (Vector.replicate 128 ({} : RouteEntry)) i {}).valid ≠ true := by
      rw [vget_replicate _ _ _ hi]
      decide
    exact ⟨fun hv => absurd hv h, fun hv => absurd hv h⟩

/-- Settles O3: each invariant is read off the power-on values. -/
theorem invariantsHoldAtReset : Obligations.InvariantsHoldAtReset := by
  refine ⟨⟨by decide, by decide, by decide⟩, fun m _ => ?residues, fun m _ => ?routes, ⟨by decide, by decide⟩, fun p => ?ports, ?journal,
    lineageSound_reset⟩
  case residues =>
    change 1 ≤ (({} : Lineage).meter m).den ∧ (({} : Lineage).meter m).residue < (({} : Lineage).meter m).den
    rw [reset_meter]
    decide
  case routes =>
    change (({} : Lineage).meter m).route = ({} : Lineage).resolve m
    rw [reset_meter, reset_resolve]
  case ports => cases p <;> exact ⟨⟨by decide, by decide, by decide, fun _ => ⟨rfl, rfl⟩⟩, rfl⟩
  case journal =>
    refine ⟨⟨fun k h => absurd h (Nat.not_lt_zero k), rfl, rfl⟩, by decide, fun h => absurd rfl h, fun f _ => ?_⟩
    change (({} : Lineage).filler f).ring.length ≤ _
    rw [reset_filler]
    decide

end Sys2Proof.Machine

/-! Links, reception and transmission (R145 to R148), O4, O5, O8. -/

namespace Sys2Proof.Machine

open Sys2Proof

/-- A port receives when RESET is released and its link is UP. -/
theorem State.receives_eq {s : State} {p : Port} (h : s.resetAsserted = false) :
    s.receives p = (s.port p).linkUp := by
  simp [State.receives, h]

/-- A port set and put back leaves the state. -/
theorem State.setPort_undo (s : State) (p : Port) (x : PortState) :
    { s.setPort p x with portA := s.portA, portB := s.portB } = s := by
  cases p <;> rfl

/-- Settles O4: each row is one update of its port, or none. -/
theorem linksStartEmptyAndDiscardWhatWaits : Obligations.LinksStartEmptyAndDiscardWhatWaits := by
  intro p s hr
  refine ⟨fun hd => ?up, fun hu => ?stays, fun hu => ⟨(s.setPort p (s.port p).down).setWaiting (loseReplies p s.waiting), ?down, ?port, ?other,
    ?lost, ?rest⟩, fun hd => ?gone⟩
  case up => simp only [exec, execLinkUp, hr, hd, Bool.or_self, Bool.false_eq_true, if_false]; rfl
  case stays => simp only [exec, execLinkUp, hu, Bool.or_true, if_true]
  case down => simp only [exec, execLinkDown, State.receives_eq hr, hu, if_true]
  case port => rw [State.port_setWaiting, State.port_setPort_same]; rfl
  case other => rw [State.port_setWaiting, State.port_setPort_other]
  case lost =>
    simp only [State.setWaiting_waiting, loseReplies, beq_iff_eq]
  case rest => cases p <;> rfl
  case gone => simp only [exec, execLinkDown, State.receives_eq hr, hd, Bool.false_eq_true, if_false]

/-- A good frame by its FCS and its length. -/
theorem frameGood_iff (fcs : Bool) (f : Frame) :
    frameGood fcs f = true ↔ fcs = true ∧ 64 ≤ f.length ∧ f.length ≤ 1518 := by
  simp only [frameGood, Bool.and_eq_true, decide_eq_true_eq, and_assoc]
  rfl

theorem State.isCommandFrame_iff (s : State) (f : Frame) :
    s.isCommandFrame f = true ↔ Frame.dst f = s.station ∧ Frame.etherType f = 0x9C5A := by
  simp [State.isCommandFrame, Config.managementType]

/-- A reception on a port that is UP is that of the frame. -/
theorem exec_frameReceive {s : State} {p : Port} (hr : s.resetAsserted = false)
    (hu : (s.port p).linkUp = true) (fcs : Bool) (f : Frame) :
    exec (.frameReceive p fcs f) s = .next (s.receive p fcs f) := by
  simp only [exec, execFrameReceive, State.receives_eq hr, hu, if_true]

/-- Settles O5: a bad frame is counted; a good one that is no command frame goes where `forward` sends it,
by the state of the other link and the room in its buffer. -/
theorem receivedFramesAreForwardedOrCounted : Obligations.ReceivedFramesAreForwardedOrCounted := by
  intro p fcs f s hr hu
  rw [exec_frameReceive hr hu]
  refine ⟨fun hbad => ?bad, fun hf h1 h2 hc => ?good⟩
  case bad =>
    have hg : frameGood fcs f = false := by
      rw [← Bool.not_eq_true, frameGood_iff]
      rintro ⟨h1, h2, h3⟩
      rcases hbad with h | h | h
      · simp [h1] at h
      · omega
      · omega
    simp only [State.receive, hg, Bool.not_false, if_true]
    rfl
  case good =>
    have hg : frameGood fcs f = true := (frameGood_iff fcs f).mpr ⟨hf, h1, h2⟩
    have hn : s.isCommandFrame f = false := by
      rw [← Bool.not_eq_true, State.isCommandFrame_iff]
      exact hc
    have hfw : s.receive p fcs f = s.forward p.other f := by simp [State.receive, hg, hn]
    intro x
    rw [hfw]
    refine ⟨fun hl hlen => ?room, fun hl => ?down, fun hl hlen => ?full⟩
    case room =>
      have : ¬ 12 ≤ (s.port p.other).fwd.length := Nat.not_le.mpr hlen
      simp [State.forward, x, hl, Config.forwardMax, this]
    case down => simp [State.forward, x, hl]
    case full =>
      have : 12 ≤ (s.port p.other).fwd.length := hlen
      simp [State.forward, x, hl, Config.forwardMax, this]

/-- Settles O8: the transmitter's four cases, by what waits in its two buffers. -/
theorem transmitterSharesByDeferral : Obligations.TransmitterSharesByDeferral := by
  intro p s hr hu
  have hx : exec (.frameTransmit p) s = .next (s.setPort p ((s.port p).transmit s.station)) := by
    simp only [exec, execFrameTransmit, State.receives_eq hr, hu, if_true]
  refine ⟨_, hx, State.port_setPort_other s p _, s.setPort_undo p _, fun hf hi => ?none, fun f rest hf hi => ?fwd,
    fun f rest hf hi hd => ?past, fun i rest hi hd => ?inj⟩
  case none => simp only [PortState.transmit, hf, hi, State.setPort_port]
  case fwd => simp [PortState.transmit, PortState.sendForwarded, hf, hi]
  case past =>
    obtain ⟨i, r, hi⟩ := List.exists_cons_of_ne_nil hi
    simp [PortState.transmit, PortState.sendForwarded, hf, hi, hd, Config.deferralMax]
  case inj =>
    rw [State.port_setPort_same]
    cases hf : (s.port p).fwd with
    | nil => simp [PortState.transmit, PortState.sendInjected, hf, hi]
    | cons f r =>
      have hd' : ¬ (s.port p).deferral < 4 := by
        rcases hd with hd | hd
        · simp [hf] at hd
        · omega
      simp [PortState.transmit, PortState.sendInjected, hf, hi, hd', Config.deferralMax]

end Sys2Proof.Machine

/-! Time (R113, R178), O10, O12: the next reading in hundredths, and what an expired timer offers. -/

namespace Sys2Proof.Machine

open Sys2Proof

/-- A reading as a count of hundredths from day 0 on. -/
def TimeStamp.hundredths (t : TimeStamp) : Nat := (t.day * 86400 + t.sec) * 100 + t.hund

/-- The next reading counts one hundredth more, round after day 99,999 (R178). -/
theorem hundredths_nextReading {t : TimeStamp} (hd : t.day ≤ 99999) (hs : t.sec ≤ 86399) (hh : t.hund ≤ 99) :
    TimeStamp.hundredths (nextReading t) = (TimeStamp.hundredths t + 1) % 864000000000 := by
  unfold nextReading TimeStamp.hundredths
  split
  · dsimp only; omega
  · split
    · dsimp only; omega
    · split
      · dsimp only; omega
      · dsimp only; omega

/-- The next reading stays within the ranges of R178. -/
theorem nextReading_inRange {t : TimeStamp} (hd : t.day ≤ 99999) (hs : t.sec ≤ 86399) (hh : t.hund ≤ 99) :
    (nextReading t).day ≤ 99999 ∧ (nextReading t).sec ≤ 86399 ∧ (nextReading t).hund ≤ 99 := by
  unfold nextReading
  split
  · exact ⟨hd, hs, by dsimp only; omega⟩
  · split
    · exact ⟨hd, by dsimp only; omega, Nat.zero_le _⟩
    · split
      · exact ⟨by dsimp only; omega, Nat.zero_le _, Nat.zero_le _⟩
      · decide

/-- The reading after the last hundredth of a day. -/
theorem nextReading_lastOfDay {t : TimeStamp} (hd : t.day ≤ 99999) (hs : t.sec = 86399) (hh : t.hund = 99) :
    nextReading t = ⟨(t.day + 1) % 100000, 0, 0⟩ := by
  unfold nextReading
  rw [if_neg (by omega), if_neg (by omega)]
  split
  · rw [Nat.mod_eq_of_lt (by omega)]
  · rw [show (t.day + 1) % 100000 = 0 by omega]

theorem Lineage.filler_resetSequences (l : Lineage) {f : Nat} (hf : f < 8) :
    l.resetSequences.filler f = { l.filler f with seq := 1 } := by
  unfold Lineage.resetSequences Lineage.filler
  exact vget_map _ _ ({} : Filler) _ _ hf

/-- The advance in one equation: the clock, the reference count, and the fillers' sequences. -/
theorem State.advance_eq (s : State) :
    s.advance = { s with
      mgmt := { s.mgmt with clock := nextReading s.mgmt.clock, elapsed := s.mgmt.elapsed + 1 }
      lin := if s.mgmt.clockSet = true ∧ (nextReading s.mgmt.clock).day ≠ s.mgmt.clock.day
        then s.lin.resetSequences else s.lin } := by
  unfold State.advance
  simp only [Bool.and_eq_true, bne_iff_ne]
  split
  · rfl
  · rfl

/-- What the advance leaves of a filler record. -/
theorem State.advance_filler (s : State) {f : Nat} (hf : f < 8) :
    s.advance.lin.filler f = { s.lin.filler f with
      seq := if s.mgmt.clockSet = true ∧ (nextReading s.mgmt.clock).day ≠ s.mgmt.clock.day then 1
             else (s.lin.filler f).seq } := by
  rw [State.advance_eq]
  dsimp only
  split
  · exact Lineage.filler_resetSequences s.lin hf
  · rfl

/-- Settles O10: the equation of the advance, and the next reading counted in hundredths. -/
theorem clockAdvancesAndRollsOver : Obligations.ClockAdvancesAndRollsOver := by
  intro s hr hc
  obtain ⟨hd, hs, hh⟩ := hc
  have hadv : exec .plantClockAdvance s = .next s.advance := by
    simp only [exec, execPlantClockAdvance, hr, Bool.false_eq_true, if_false]
  have hclock : s.advance.mgmt.clock = nextReading s.mgmt.clock := by rw [State.advance_eq]
  refine ⟨⟨s.advance, hadv, ?count, ?mgmt, fun f hf => ?seq, ?rest⟩, fun h1 h2 => ⟨s.advance, ?roll, ?day,
    fun hset f hf => ?restart, hadv⟩, fun hn => ?idle⟩
  case count => rw [hclock]; exact hundredths_nextReading hd hs hh
  case mgmt => rw [State.advance_eq]
  case seq => rw [hclock]; exact s.advance_filler hf
  case rest =>
    rw [State.advance_eq]
    dsimp only
    split <;> rfl
  case roll => simp [exec, execClockDayRollover, hr, lastOfDay, h1, h2]
  case day => rw [hclock, nextReading_lastOfDay hd h1 h2]
  case restart =>
    have hday : (nextReading s.mgmt.clock).day ≠ s.mgmt.clock.day := by
      rw [nextReading_lastOfDay hd h1 h2]
      dsimp only
      omega
    rw [s.advance_filler hf, if_pos ⟨hset, hday⟩]
  case idle =>
    have : lastOfDay s.mgmt.clock = false := by
      rw [← Bool.not_eq_true]
      simpa [lastOfDay] using fun h1 h2 => hn ⟨h1, h2⟩
    simp [exec, execClockDayRollover, this]

/-- Setting a filler record twice leaves the second. -/
theorem Lineage.setFiller_setFiller (l : Lineage) (f : Nat) (x y : Filler) :
    (l.setFiller f x).setFiller f y = l.setFiller f y := by
  simp only [Lineage.setFiller, vset_vset]

/-- Settles O12: the timer stops, and by the open batch and the room in the queue one of three things
follows. -/
theorem idleTimerExpiryOffersIdleClose : Obligations.IdleTimerExpiryOffersIdleClose := by
  intro f s hr hf due ht hle stopped
  have hx : exec (.idleTimerExpiry f) s = .next (s.expire f) := by
    simp [exec, execIdleTimerExpiry, hr, State.timerDue, ht, hle]
  have hfil : stopped.lin.filler f = { s.lin.filler f with timer := none } := Lineage.setFiller_same hf _
  have hopen : (stopped.lin.filler f).openBatch = (s.lin.filler f).openBatch := by rw [hfil]; rfl
  rw [hx]
  refine ⟨fun hnone => ?closed, fun b hb => ⟨fun hroom => ?room, fun hfull => ?held⟩⟩
  case closed => simp only [State.expire, stopped, State.setLin_lin] at hopen ⊢; rw [hopen, hnone]
  all_goals
    have he : s.expire f = stopped.offerIdleClose f b.serial := by
      simp only [State.expire, stopped, State.setLin_lin] at hopen ⊢; rw [hopen, hb]
    rw [he]
  case room =>
    have : ordinaryCount stopped.evq < Config.ordinaryMax := hroom
    simp only [State.offerIdleClose, State.offerIdle, State.append, this, if_true]
    rfl
  case held =>
    have : ¬ ordinaryCount stopped.evq < Config.ordinaryMax := Nat.not_lt.mpr hfull
    simp only [State.offerIdleClose, State.offerIdle, State.append, this, if_false, Bool.false_eq_true, hfil]
    simp only [stopped, State.setLin, Lineage.setFiller_setFiller]
    rfl

end Sys2Proof.Machine
/-! Command frames checked, offered and deferred (R173 to R176), O13, O14, O15: the checks one after
another, each with the frame it lets no further. -/

namespace Sys2Proof.Machine

open Sys2Proof

section checks

variable {s : State} {h : CmdHdr} {c : Command}

/-- A port that is UP on a part out of RESET receives. -/
theorem State.receives_of {p : Port} (hr : s.resetAsserted = false) (hu : (s.port p).linkUp = true) :
    s.receives p = true := by
  simp [State.receives, hr, hu]

/-- A command row on a port that is UP is the acceptance of its frame. -/
theorem exec_accept {i : Instr} (hc : commandOf i = some (h, c)) (hr : s.resetAsserted = false)
    (hu : (s.port h.port).linkUp = true) :
    exec i s = .next (s.accept h (commandCode c) (if formOk h c then some c else none)) := by
  rw [exec_command s hc, State.command, State.receives_of hr hu, if_pos rfl]

theorem PortState.room_iff (x : PortState) : x.room = true ↔ x.inj.length + x.reservations < 8 := by
  simp only [PortState.room, decide_eq_true_eq]
  rfl

/-- Step 1 of R173. -/
theorem State.accept_wrong_version (hv : h.version ≠ 1) (code : Nat) (oc : Option Command) :
    s.accept h code oc =
      { s with mgmt := { s.mgmt with versionDrops := tick32 s.mgmt.versionDrops } } := by
  have : (h.version != Config.version) = true := bne_iff_ne.mpr hv
  rw [State.accept, this, if_pos rfl]
  rfl

/-- Step 2 of R173. -/
theorem State.accept_no_room (hv : h.version = 1)
    (hroom : 8 ≤ (s.port h.port).inj.length + (s.port h.port).reservations) (code : Nat)
    (oc : Option Command) :
    s.accept h code oc = { s with mgmt := { s.mgmt with replyDrops := tick32 s.mgmt.replyDrops } } := by
  have h1 : (h.version != Config.version) = false := by rw [hv]; rfl
  have h2 : (s.port h.port).room = false := by
    rw [← Bool.not_eq_true, PortState.room_iff]
    omega
  rw [State.accept, h1, if_neg Bool.false_ne_true, h2, Bool.not_false, if_pos rfl]
  rfl

/-- Past the first two steps the reply's place is reserved. -/
theorem State.accept_reserved (hv : h.version = 1)
    (hroom : (s.port h.port).inj.length + (s.port h.port).reservations < 8) (code : Nat)
    (oc : Option Command) : s.accept h code oc = (s.reserve h.port).checkReserved h code oc := by
  have h1 : (h.version != Config.version) = false := by rw [hv]; rfl
  have h2 : (s.port h.port).room = true := (PortState.room_iff _).mpr hroom
  rw [State.accept, h1, if_neg Bool.false_ne_true, h2, Bool.not_true, if_neg Bool.false_ne_true]

/-- An answer on a port that is UP, after an effect that leaves the ports, takes the place reserved. -/
theorem State.answer_after_reserve {t u : State} {p : Port} (hu : (s.port p).linkUp = true)
    (ht : t = u.setPort p { s.port p with reservations := (s.port p).reservations + 1 }) (r : Reply) :
    t.answer p false r = u.setPort p ((s.port p).answered r) := by
  rw [State.answer_reserved r (x := s.port p) (by rw [ht, State.port_setPort_same]) hu, ht, State.setPort_setPort]

theorem State.reserve_eq (s : State) (p : Port) :
    s.reserve p = s.setPort p { s.port p with reservations := (s.port p).reservations + 1 } := rfl

theorem State.mgmt_reserve (s : State) (p : Port) : (s.reserve p).mgmt = s.mgmt := State.setPort_mgmt _ _ _

/-- Step 3 of R173. -/
theorem State.checkReserved_not_permitted (hu : (s.port h.port).linkUp = true)
    (hp : s.mgmt.permits h.source = false) (code : Nat) (oc : Option Command) :
    (s.reserve h.port).checkReserved h code oc =
      ({ s with mgmt := { s.mgmt with refusals := tick32 s.mgmt.refusals } }).setPort h.port
        ((s.port h.port).answered ⟨h.source, code, h.tag, .notPermitted, []⟩) := by
  unfold State.checkReserved
  rw [State.mgmt_reserve, hp, Bool.not_false, if_pos rfl]
  exact State.answer_after_reserve hu (u := s.setMgmt { s.mgmt with refusals := tick32 s.mgmt.refusals })
    (by rw [State.reserve_eq, State.setMgmt_setPort]) _

/-- Step 4 of R173: a frame that spells no command. -/
theorem State.checkReserved_bad_form (hu : (s.port h.port).linkUp = true)
    (hp : s.mgmt.permits h.source = true) (code : Nat) :
    (s.reserve h.port).checkReserved h code none =
      s.setPort h.port ((s.port h.port).answered ⟨h.source, code, h.tag, .badArgument, []⟩) := by
  rw [State.checkReserved, State.mgmt_reserve, hp, Bool.not_true, if_neg Bool.false_ne_true]
  exact State.answer_after_reserve hu (State.reserve_eq s h.port) _

/-- Who may send commands (R173, R177). -/
theorem Mgmt.permits_iff (m : Mgmt) {source : Nat} (hs : source ≠ 0) :
    m.permits source = true ↔ (m.manager0 = 0 ∧ m.manager1 = 0) ∨ m.manager0 = source ∨ m.manager1 = source := by
  simp [Mgmt.permits, hs]

end checks

/-- Settles O13: the checks in their order, each by its own lemma. -/
theorem commandFrameChecksInOrder : Obligations.CommandFrameChecksInOrder := by
  intro i h c s hc hr hu
  rw [exec_accept hc hr hu]
  refine ⟨fun hv => ?version, fun hv hroom => ?room, fun hv hroom hp => ?source, fun hv hroom hp hf => ?form,
    fun hs => s.mgmt.permits_iff hs⟩
  case version => rw [State.accept_wrong_version hv]
  case room => rw [State.accept_no_room hv hroom]
  case source => rw [State.accept_reserved hv hroom, State.checkReserved_not_permitted hu hp]
  case form =>
    rw [State.accept_reserved hv hroom, hf, if_neg Bool.false_ne_true, State.checkReserved_bad_form hu hp]

/-! ## Commands handed on (R175, R176) -/

section passes

variable {s : State} {h : CmdHdr}

/-- A command that passes the checks, handed on. -/
theorem exec_passes {i : Instr} {c : Command} (hc : commandOf i = some (h, c)) (p : Passes s h c) :
    exec i s = .next ((s.reserve h.port).handOn h c) := by
  rw [exec_command s hc, State.command_passes p]

theorem State.append_room (e : Entry) (hq : ordinaryCount s.evq < 63) :
    s.append e = (s.setEvq (s.evq ++ [e]), true) := if_pos hq

theorem State.append_full (e : Entry) (hq : 63 ≤ ordinaryCount s.evq) : s.append e = (s, false) :=
  if_neg (Nat.not_lt.mpr hq)

/-- A queued command with an ordinary slot free joins the queue and is answered QUEUED (R176). -/
theorem State.handOn_queued {v : EntryVal} (hu : (s.port h.port).linkUp = true)
    (hq : ordinaryCount s.evq < 63) :
    (s.reserve h.port).handOn h (.queued v) =
      State.settle (({ s with evq := s.evq ++ [Entry.mk v s.mgmt.clock h.tag true] }).setPort h.port
        ((s.port h.port).answered ⟨h.source, queuedCode v, h.tag, .queued, []⟩)) := by
  have hq' : ordinaryCount (s.reserve h.port).evq < 63 := by rwa [State.reserve_eq, State.setPort_evq]
  simp only [State.handOn, State.offerCommand, State.append_room _ hq']
  refine congrArg State.settle (State.answer_after_reserve hu ?_ _)
  rw [State.reserve_eq, State.setEvq_setPort, State.setPort_evq, State.now_setPort]
  rfl

/-- A queued command without an ordinary slot is answered QUEUE_FULL (R176). -/
theorem State.handOn_queueFull {v : EntryVal} (hu : (s.port h.port).linkUp = true)
    (hq : 63 ≤ ordinaryCount s.evq) :
    (s.reserve h.port).handOn h (.queued v) = State.settle (s.setPort h.port
        ((s.port h.port).answered ⟨h.source, queuedCode v, h.tag, .queueFull, []⟩)) := by
  have hq' : 63 ≤ ordinaryCount (s.reserve h.port).evq := by rwa [State.reserve_eq, State.setPort_evq]
  simp only [State.handOn, State.offerCommand, State.append_full _ hq']
  exact congrArg State.settle (State.answer_after_reserve hu (State.reserve_eq s h.port) _)

/-- A command that waits joins those that wait, its reply's place reserved (R174, R175). -/
theorem State.enqueueWaiting_reserve (w : WaitCmd) :
    (s.reserve h.port).enqueueWaiting h w =
      ({ s with waiting := s.waiting ++ [Waiting.mk h.port h.source h.tag false w] }).setPort h.port
        { s.port h.port with reservations := (s.port h.port).reservations + 1 } := by
  rw [State.enqueueWaiting, State.reserve_eq, State.setWaiting_setPort, State.setPort_waiting]
  rfl

theorem State.busy_iff (s : State) : s.busy = true ↔ s.inFlight ≠ none ∨ s.waiting ≠ [] := by
  rw [State.busy, Bool.or_eq_true, Option.isSome_iff_ne_none, Bool.not_eq_true', ← Bool.not_eq_true,
    List.isEmpty_iff]

end passes

/-- Settles O14: the offer by the room in the queue, the wait by the class of the command. -/
theorem queuedCommandsAreOfferedAndDirectOnesWait : Obligations.QueuedCommandsAreOfferedAndDirectOnesWait := by
  refine ⟨fun i h v s hc hp => ?queued, fun i h c w s hc hp hw => ?waits⟩
  case queued =>
    rw [exec_passes hc hp]
    exact ⟨fun hq => by rw [State.handOn_queued hp.linkUp hq], fun hq => by rw [State.handOn_queueFull hp.linkUp hq]⟩
  case waits =>
    rw [exec_passes hc hp]
    have hand : (s.reserve h.port).handOn h c = (s.reserve h.port).enqueueWaiting h w := by
      rcases hw with ⟨rfl, rfl⟩ | ⟨hb, b, rfl, rfl⟩
      · rfl
      · have hbusy : (s.reserve h.port).busy = true := by rw [State.busy_reserve, State.busy_iff]; exact hb
        simp only [State.handOn, hbusy, if_true]
    rw [hand, State.enqueueWaiting_reserve]

/-- A run of commands ahead of a CLEAR_ENGINE or the end is what the engine takes from those that wait. -/
theorem span_isBetween {ws rest : List Waiting} (hws : ∀ w ∈ ws, w.cmd ≠ .clear)
    (hrest : ∀ w, rest.head? = some w → w.cmd = .clear) :
    (ws ++ rest).takeWhile Waiting.isBetween = ws ∧ (ws ++ rest).dropWhile Waiting.isBetween = rest := by
  have hb : ∀ w ∈ ws, w.isBetween = true := fun w hw => bne_iff_ne.mpr (hws w hw)
  rw [List.takeWhile_append_of_pos hb, List.dropWhile_append_of_pos hb]
  cases rest with
  | nil => exact ⟨List.append_nil ws, rfl⟩
  | cons r rest =>
    have hr : r.isBetween = false := by rw [Waiting.isBetween, hrest r rfl]; rfl
    simp [hr]

/-- Settles O15: what waits ahead of a CLEAR_ENGINE is carried out in turn. -/
theorem deferredCommandsRunInOrder : Obligations.DeferredCommandsRunInOrder := by
  intro ws rest s hr hi hw hws hrest
  obtain ⟨ht, hd⟩ := span_isBetween hws hrest
  refine ⟨?run, fun u w b hb => by simp only [State.carryOut, hb]⟩
  have hn : (s.resetAsserted || s.inFlight.isSome) = false := by rw [hr, hi]; rfl
  simp only [exec, execDeferredDirectCommands, State.deferred, hn, Bool.false_eq_true, if_false, hw, ht, hd]
  rfl

/-! ## Commands at once (R175) -/

section atOnce

variable {s : State} {h : CmdHdr} (a : AtOnce)

/-- A command at once whose effect leaves the ports is answered in its place; then the engine goes on. -/
theorem exec_atOnce {i : Instr} {u : State} {st : Status} {args : List Byte}
    (hc : commandOf i = some (h, .atOnce a)) (p : Passes s h (.atOnce a))
    (ha : (s.reserve h.port).applyAtOnce a = (u.reserve h.port, st, args)) (hport : u.port h.port = s.port h.port) :
    exec i s = .next (State.settle (u.setPort h.port
      ((s.port h.port).answered ⟨h.source, atOnceCode a, h.tag, st, args⟩))) := by
  rw [exec_passes hc p]
  simp only [State.handOn, ha]
  exact congrArg (Host.Outcome.next ∘ State.settle)
    (State.answer_after_reserve p.linkUp (by rw [State.reserve_eq, hport]) _)

theorem State.dec_reserve (s : State) (p : Port) : (s.reserve p).dec = s.dec := State.setPort_dec _ _ _
theorem State.jrn_reserve (s : State) (p : Port) : (s.reserve p).jrn = s.jrn := State.setPort_jrn _ _ _
theorem State.reserve_setDec (s : State) (p : Port) (d : Decoder) :
    (s.reserve p).setDec d = (s.setDec d).reserve p := by cases p <;> rfl
theorem State.reserve_setMgmt (s : State) (p : Port) (m : Mgmt) :
    (s.reserve p).setMgmt m = (s.setMgmt m).reserve p := by cases p <;> rfl
theorem State.reserve_setJrn (s : State) (p : Port) (j : Journal) :
    (s.reserve p).setJrn j = (s.setJrn j).reserve p := by cases p <;> rfl

end atOnce

/-- The widths of R151, field by field. -/
theorem widthsAllowed_iff (ws : List (List Nat)) (fs : List FieldSpec) :
    widthsAllowed ws fs = true ↔ List.Forall₂ (fun ws f => f.width ∈ ws) ws fs := by
  induction ws generalizing fs with
  | nil => cases fs <;> simp [widthsAllowed]
  | cons w ws ih => cases fs <;> simp [widthsAllowed, ih]

/-- The objects of an entry's items, from R150. -/
theorem objectsInRange_iff {e : MatchEntry} (_ : 1 ≤ e.count) :
    objectsInRange e = true ↔ e.cls = .dispatch ∨ e.objBase + e.count ≤
      (match e.cls with
        | .meter => 48
        | .valve => 32
        | .cipStart | .cipEnd => 64
        | _ => 8) := by
  unfold objectsInRange
  cases e.cls <;> simp only [ItemClass.lastObject, decide_eq_true_eq, reduceCtorEq, false_or, true_or] <;> omega

/-- The checks of LOAD_MATCH as R150 and R151 list them. -/
theorem matchOk_iff (k : Nat) (e : MatchEntry) :
    matchOk k e = true ↔ k ≤ 63 ∧ e.base ≤ e.limit ∧ 1 ≤ e.count ∧ e.count ≤ 16 ∧ e.stride ≤ 1499 ∧
      (∀ f ∈ e.fields, f.off ≤ 1499) ∧ List.Forall₂ (fun ws f => f.width ∈ ws) e.cls.widths e.fields ∧
      objectsInRange e = true := by
  simp only [matchOk, Bool.and_eq_true, decide_eq_true_eq, List.all_eq_true, widthsAllowed_iff, and_assoc]

theorem State.loadMatch_reserve (s : State) (p : Port) (k : Nat) (e : MatchEntry) :
    (s.reserve p).loadMatch k e = if matchOk k e = true
      then ((s.setDec { s.dec with matchTable := vset s.dec.matchTable k e }).reserve p, .done)
      else (s.reserve p, .badArgument) := by
  rw [State.loadMatch, State.dec_reserve, State.reserve_setDec]

theorem State.loadFilter_reserve (s : State) (p : Port) (f : TelegramFilter) :
    (s.reserve p).loadFilter f =
      if f.stationOff ≤ 1499 ∧ f.kindOff ≤ 1499 ∧ (f.stationWidth = 1 ∨ f.stationWidth = 2)
      then ((s.setDec { s.dec with filter := f }).reserve p, .done) else (s.reserve p, .badArgument) := by
  rw [State.loadFilter, State.dec_reserve, State.reserve_setDec]
  simp only [Bool.and_eq_true, decide_eq_true_eq, Bool.or_eq_true, beq_iff_eq, and_assoc]

theorem State.loadOverride_reserve (s : State) (p : Port) (k : Nat) (o : Override) :
    (s.reserve p).loadOverride k o = if k ≤ 3 ∧ o.cluster ≤ 31
      then ((s.setDec { s.dec with overrides := vset s.dec.overrides k o }).reserve p, .done)
      else (s.reserve p, .badArgument) := by
  rw [State.loadOverride, State.dec_reserve, State.reserve_setDec]
  simp only [Bool.and_eq_true, decide_eq_true_eq]

/-- An address may stand in the list unless it is a group's or the part's own (R177). -/
theorem State.managerOk_iff (s : State) (x : Nat) :
    s.managerOk x = true ↔ ¬ (x / 2 ^ 40 % 2 = 1 ∨ x = s.station) := by
  simp [State.managerOk, groupBit]

theorem State.setManagers_reserve (s : State) (p : Port) (a b : Nat) :
    (s.reserve p).setManagers a b =
      if ¬ (a / 2 ^ 40 % 2 = 1 ∨ a = s.station) ∧ ¬ (b / 2 ^ 40 % 2 = 1 ∨ b = s.station)
      then ((s.setMgmt { s.mgmt with manager0 := a, manager1 := b }).reserve p, .done)
      else (s.reserve p, .badArgument) := by
  have hs : (s.reserve p).station = s.station := by rw [State.station, State.mgmt_reserve, State.station]
  rw [State.setManagers, State.mgmt_reserve, State.reserve_setMgmt]
  simp only [Bool.and_eq_true, State.managerOk_iff, hs]

/-- Settles O16: each load is its check and, where that passes, one update; the answer and the next taking
follow in both cases. -/
theorem tablesAndManagersLoadAtOnce : Obligations.TablesAndManagersLoadAtOnce := by
  intro h s answered
  refine ⟨fun k e p => ?matchTable, fun f p => ?filter, fun k o p => ?override, fun a b p => ?managers⟩
  case matchTable =>
    intro widths objects ok
    have hok : matchOk k e = true ↔ ok := by
      have hw : e.cls.widths = widths := by cases hcls : e.cls <;> simp only [widths, hcls, ItemClass.widths]
      rw [matchOk_iff, hw]
      simp only [ok]
      refine and_congr_right fun _ => and_congr_right fun _ => and_congr_right fun hc => ?_
      rewrite [objectsInRange_iff hc]
      exact Iff.rfl
    refine ⟨fun h1 => exec_atOnce (.loadMatch k e) rfl p ?_ rfl, fun h1 => exec_atOnce (.loadMatch k e) rfl p ?_ rfl⟩
    · simp only [State.applyAtOnce, State.loadMatch_reserve, hok.mpr h1, if_true]
      rfl
    · simp only [State.applyAtOnce, State.loadMatch_reserve, if_neg (mt hok.mp h1)]
  case filter =>
    refine ⟨fun h1 => exec_atOnce (.loadFilter f) rfl p ?_ rfl, fun h1 => exec_atOnce (.loadFilter f) rfl p ?_ rfl⟩
    · simp only [State.applyAtOnce, State.loadFilter_reserve, if_pos h1]
      rfl
    · simp only [State.applyAtOnce, State.loadFilter_reserve, if_neg h1]
  case override =>
    refine ⟨fun h1 => exec_atOnce (.loadOverride k o) rfl p ?_ rfl, fun h1 => exec_atOnce (.loadOverride k o) rfl p ?_ rfl⟩
    · simp only [State.applyAtOnce, State.loadOverride_reserve, if_pos h1]
      rfl
    · simp only [State.applyAtOnce, State.loadOverride_reserve, if_neg h1]
  case managers =>
    intro bad
    refine ⟨fun ha hb => exec_atOnce (.setManagers a b) rfl p ?_ rfl, fun hab => exec_atOnce (.setManagers a b) rfl p ?_ rfl⟩
    · have hset := s.setManagers_reserve h.port a b
      rw [if_pos ⟨ha, hb⟩] at hset
      simp only [State.applyAtOnce, hset]
      rfl
    · have hset := s.setManagers_reserve h.port a b
      rw [if_neg (not_and_or.mpr (hab.imp not_not.mpr not_not.mpr))] at hset
      simp only [State.applyAtOnce, hset]

/-! ## The journal fetched and released (R168, R169) -/

/-- The records that fit are those first in the list, whole, and the next one does not fit (R168). -/
theorem fitRecords_spec (room : Nat) (l : List JournalRec) :
    fitRecords room l <+: l ∧ ((fitRecords room l).flatMap JournalRec.bytes).length ≤ room ∧
      ∀ r, fitRecords room l ++ [r] <+: l → room < ((fitRecords room l ++ [r]).flatMap JournalRec.bytes).length := by
  induction l generalizing room with
  | nil => exact ⟨List.nil_prefix, Nat.zero_le _, fun r h => by simp [fitRecords] at h⟩
  | cons x t ih =>
    rw [fitRecords]
    split
    · rename_i hx
      obtain ⟨h1, h2, h3⟩ := ih (room - x.bytes.length)
      refine ⟨List.cons_prefix_cons.mpr ⟨rfl, h1⟩, ?_, fun r hr => ?_⟩
      · rw [List.flatMap_cons, List.length_append]
        omega
      · rw [List.cons_append] at hr ⊢
        have := h3 r (List.cons_prefix_cons.mp hr).2
        rw [List.flatMap_cons, List.length_append]
        omega
    · rename_i hx
      refine ⟨List.nil_prefix, Nat.zero_le _, fun r hr => ?_⟩
      rw [List.nil_append] at hr ⊢
      rw [(List.cons_prefix_cons.mp hr).1, List.flatMap_cons, List.flatMap_nil, List.append_nil]
      omega

theorem State.engine_reserve (s : State) (p : Port) : (s.reserve p).engine = s.engine := by
  cases p <;> rfl

/-- A fetch reads the journal and the engine's state, which a reservation leaves. -/
theorem State.journalFetch_reserve (s : State) (p : Port) (n : Seq) :
    (s.reserve p).journalFetch n = s.journalFetch n := by
  simp only [State.journalFetch, State.fetchReply, State.jrn_reserve, State.engine_reserve]

theorem State.journalRelease_reserve (s : State) (p : Port) (n : Seq) :
    (s.reserve p).journalRelease n = ((s.journalRelease n).1.reserve p, (s.journalRelease n).2) := by
  simp only [State.journalRelease, State.jrn_reserve, State.reserve_setJrn]
  split <;> rfl

/-- Settles O18: the fetch by how far the record lies behind the oldest, the release by how many records it
reaches. -/
theorem journalIsFetchedAndReleased : Obligations.JournalIsFetchedAndReleased := by
  intro h n s P
  constructor
  case left =>
    intro p d
    have run : ∀ st rs, s.journalFetch n = (st, s.fetchReply rs) → exec (.journalFetch h n) s =
        .next (State.settle (s.setPort h.port
          ((s.port h.port).answered ⟨h.source, 0x38, h.tag, st, s.fetchReply rs⟩))) := fun st rs hf =>
      exec_atOnce (.journalFetch n) rfl p (by simp only [State.applyAtOnce, State.journalFetch_reserve, hf]) rfl
    by_cases hd : d ≤ P
    · obtain ⟨h1, h2, h3⟩ := fitRecords_spec 1400 ((s.jrn.records.take P).drop d)
      refine ⟨.done, s.jrn.fetched d, run _ _ (if_pos hd), by simp [hd], ?_, fun hP => ?_, h1, h2, fun r hr _ => h3 r hr⟩
      · simp [Nat.not_lt.mpr hd]
      · have hnil : (s.jrn.records.take P).drop d = [] :=
          List.drop_eq_nil_of_le ((List.length_take_le _ _).trans hP)
        change fitRecords 1400 ((s.jrn.records.take P).drop d) = []
        rw [hnil, fitRecords]
    · exact ⟨.range, [], run _ _ (if_neg hd), by simp [hd], by simp [Nat.not_le.mp hd], fun _ => rfl,
        List.nil_prefix, Nat.zero_le _, fun _ _ hle => absurd hle hd⟩
  case right =>
    intro p d
    refine ⟨fun hd => exec_atOnce (.journalRelease n) rfl p ?_ rfl, fun hd => exec_atOnce (.journalRelease n) rfl p ?_ rfl⟩
    · have : s.journalRelease n = (s.setJrn (s.jrn.release n), .done) := if_pos hd
      simp only [State.applyAtOnce, State.journalRelease_reserve, this, State.jrn_reserve, State.setJrn_jrn]
      rfl
    · have : s.journalRelease n = (s, .range) := if_neg (Nat.not_le.mpr hd)
      simp only [State.applyAtOnce, State.journalRelease_reserve, this, State.jrn_reserve]

/-! ## Commands between operations (R175) -/

/-- A direct command between operations reads and writes the lineage state, the hold unit, the Management
unit and the journal: on states that agree on them it does the same. -/
theorem State.applyBetween_eq {s t : State} (hl : t.lin = s.lin) (hh : t.hold = s.hold) (hm : t.mgmt = s.mgmt)
    (hj : t.jrn = s.jrn) (tag : Nat) (b : Between) :
    t.applyBetween tag b =
      ({ t with lin := (s.applyBetween tag b).1.lin, hold := (s.applyBetween tag b).1.hold,
                mgmt := (s.applyBetween tag b).1.mgmt, jrn := (s.applyBetween tag b).1.jrn },
       (s.applyBetween tag b).2) := by
  obtain ⟨⟩ := s
  obtain ⟨⟩ := t
  simp only at hl hh hm hj
  subst hl hh hm hj
  cases b with
  | loadVessel v cfg => simp only [State.applyBetween, State.loadVessel]; split <;> rfl
  | loadMeter m w n d j => simp only [State.applyBetween, State.loadMeter]; split <;> rfl
  | loadRoute r => simp only [State.applyBetween, State.loadRoute]; split <;> rfl
  | loadCategory cells => simp only [State.applyBetween, State.loadCategory]; split <;> rfl
  | loadPolicy p =>
    cases p with
    | cond row rep tg => simp only [State.applyBetween, State.loadPolicy]; (repeat' split) <;> rfl
    | content c on => simp only [State.applyBetween, State.loadPolicy]; split <;> rfl
  | loadOutput a b c d => simp only [State.applyBetween, State.loadOutput]; (repeat' split) <;> rfl
  | setPlant n => simp only [State.applyBetween, State.setPlant]; split <;> rfl
  | setSerials a b c => simp only [State.applyBetween, State.setSerials]; split <;> rfl
  | setClock d x c => simp only [State.applyBetween, State.setClock, State.applyClock]; (repeat' split) <;> rfl
  | readVessel v => rfl
  | readKey k => rfl
  | readBatch f p => rfl
  | readBay v => rfl
  | readMeter m => rfl

/-- A quiet engine carries out a direct command between operations at once and answers it. -/
theorem exec_between {i : Instr} {h : CmdHdr} {s : State} (b : Between) (hc : commandOf i = some (h, .between b))
    (p : Passes s h (.between b)) (hi : s.inFlight = none) (hw : s.waiting = []) {u : State} {st : Status}
    {args : List Byte} (ha : s.applyBetween h.tag b = (u, st, args)) :
    exec i s = .next (u.setPort h.port
      ((s.port h.port).answered ⟨h.source, betweenCode b, h.tag, st, args⟩)) := by
  have hself := State.applyBetween_eq (s := s) rfl rfl rfl rfl h.tag b
  have hres := State.applyBetween_eq (s := s) (t := s.reserve h.port) (State.setPort_lin _ _ _)
    (State.setPort_hold _ _ _) (State.setPort_mgmt _ _ _) (State.setPort_jrn _ _ _) h.tag b
  have hbusy : (s.reserve h.port).busy = false := by
    rw [State.busy_reserve, ← Bool.not_eq_true, State.busy_iff, hi, hw]
    simp
  rw [ha] at hself hres
  rw [exec_passes hc p]
  simp only [State.handOn, hbusy, Bool.false_eq_true, if_false, hres]
  refine congrArg Host.Outcome.next (State.answer_after_reserve p.linkUp ?_ _)
  rw [(Prod.mk.inj hself).1]
  generalize h.port = q
  cases q <;> rfl

/-- Settles O17: STATUS reads the state with its reply's place reserved; a reading is answered with what its
function gives. -/
theorem statusAndReadingsChangeNothing : Obligations.StatusAndReadingsChangeNothing := by
  refine ⟨fun h s p => ⟨⟨h.source, 0x01, h.tag, .done, (s.reserve h.port).statusReply⟩, rfl, rfl, rfl, rfl, rfl,
    exec_atOnce .status rfl p rfl rfl⟩, ?_⟩
  intro i h b s hc p hi hw replied
  have read : ∀ st args, s.applyBetween h.tag b = (s, st, args) → replied st args :=
    fun st args ha => exec_between b hc p hi hw ha
  refine ⟨?vessel, ?key, ?batch, ?bay, ?meter⟩
  case vessel =>
    rintro v rfl
    split
    · rename_i hv
      exact read _ _ (by simp only [State.applyBetween, State.readVessel, if_neg (Nat.not_lt.mpr hv)])
    · rename_i hv
      exact read _ _ (by simp only [State.applyBetween, State.readVessel, if_pos (Nat.not_le.mp hv)])
  case key =>
    rintro k rfl
    refine ⟨fun hk => read _ _ ?_, fun key hk hres => read _ _ ?_, fun n e hk he => read _ _ ?_,
      fun n e hk he => read _ _ ?_⟩
    · simp only [State.applyBetween, State.readKey, hk]
    · cases key with
      | unknown => exact absurd hk (by unfold RawKey.toRecordKey; split <;> simp_all)
      | coll n =>
        have : s.lin.findColl n = none := Option.not_isSome_iff_eq_none.mp (Bool.eq_false_iff.mp hres)
        simp only [State.applyBetween, State.readKey, hk, this]
      | blend n =>
        have : s.lin.findBlend n = none := Option.not_isSome_iff_eq_none.mp (Bool.eq_false_iff.mp hres)
        simp only [State.applyBetween, State.readKey, hk, this]
    · simp only [State.applyBetween, State.readKey, hk, he]
    · simp only [State.applyBetween, State.readKey, hk, he]
  case batch =>
    rintro f q rfl
    split
    · rename_i hf
      exact read _ _ (by simp only [State.applyBetween, State.readBatch, Bool.or_eq_true, decide_eq_true_eq, if_pos hf])
    · rename_i hf
      split
      · rename_i hx
        exact read _ _ (by
          simp only [State.applyBetween, State.readBatch, Bool.or_eq_true, decide_eq_true_eq, if_neg hf, hx])
      · rename_i x hx
        exact read _ _ (by
          simp only [State.applyBetween, State.readBatch, Bool.or_eq_true, decide_eq_true_eq, if_neg hf, hx])
  case bay =>
    rintro v rfl
    have hcond : (63 < v ∨ (s.lin.vessel v).kind ≠ .bay) ↔ ¬ (v ≤ 63 ∧ (s.lin.vessel v).kind = .bay) := by
      rw [not_and_or, Nat.not_le]
    split
    · rename_i hv
      exact read _ _ (by simp only [State.applyBetween, State.readBay, Bool.or_eq_true, decide_eq_true_eq,
        bne_iff_ne, hcond, if_neg (not_not.mpr hv)])
    · rename_i hv
      exact read _ _ (by simp only [State.applyBetween, State.readBay, Bool.or_eq_true, decide_eq_true_eq,
        bne_iff_ne, hcond, if_pos hv])
  case meter =>
    rintro m rfl
    split
    · rename_i hm
      exact read _ _ (by simp only [State.applyBetween, State.readMeter, if_neg (Nat.not_lt.mpr hm)])
    · rename_i hm
      exact read _ _ (by simp only [State.applyBetween, State.readMeter, if_pos (Nat.not_le.mp hm)])

/-- LOAD_ROUTE's checks on the bank, the index, the count and the valid byte (R82, step 1). -/
theorem Lineage.checkLoadRoute_badArgument (l : Lineage) {r : RouteArgs}
    (h : 1 < r.bank ∨ 127 < r.index ∨ 2 < r.count ∨ 1 < r.valid) : l.checkLoadRoute r = .badArgument := by
  unfold Lineage.checkLoadRoute
  split
  · rfl
  · rename_i k hk
    have hbank : r.bank ≤ 1 := by
      unfold bankOfByte at hk
      split at hk
      · simp_all
      · split at hk
        · simp_all
        · cases hk
    have hflag : 1 < r.valid → flagOfByte r.valid = none := fun hv => by
      unfold flagOfByte
      rw [if_neg (by simp; omega), if_neg (by simp; omega)]
    refine if_pos ?_
    rcases h with h | h | h | h
    · omega
    · simp [h]
    · simp [h]
    · simp [hflag h]

/-- A flag byte of 0 or 1 is read. -/
theorem flagOfByte_of_le {n : Nat} (h : n ≤ 1) : flagOfByte n = some (decide (n = 1)) := by
  interval_cases n <;> rfl

theorem flagSet_eq (n : Nat) : flagSet n = decide (n = 1) := by
  rw [flagSet, beq_eq_decide]

/-- Past step 1 the bank is compared with the active one, and the entry is checked (R82). -/
theorem Lineage.checkLoadRoute_eq (l : Lineage) {r : RouteArgs} {k : Bank} (hk : bankOfByte r.bank = some k)
    (hi : r.index ≤ 127) (hc : r.count ≤ 2) (hv : r.valid ≤ 1) :
    l.checkLoadRoute r = if k = l.active then .activeBank
      else if flagSet r.valid && !l.routeOk (routeEntryOf r) then .tableInvalid else .done := by
  simp only [Lineage.checkLoadRoute, hk, flagOfByte_of_le hv, Option.isNone_some, Bool.or_false, Bool.or_eq_true,
    decide_eq_true_eq, beq_iff_eq]
  rw [if_neg (by omega)]

/-- Step 3 of R82, value by value. -/
theorem Lineage.routeOk_iff (l : Lineage) (e : RouteEntry) :
    l.routeOk e = true ↔ e.meter ≤ 47 ∧ e.src ≤ 63 ∧ e.dst ≤ 63 ∧
      (l.vessel e.src).kind ≠ .unconfigured ∧ (l.vessel e.dst).kind ≠ .unconfigured ∧
      (l.vessel e.src).kind ≠ .filler ∧ (l.vessel e.dst).kind ≠ .bay ∧
      ∀ c ∈ [e.c1, e.c2].take e.count, c.cluster ≤ 31 := by
  simp only [Lineage.routeOk, RouteEntry.inUse, Bool.and_eq_true, decide_eq_true_eq, bne_iff_ne, List.all_eq_true,
    and_assoc]

/-- Settles O20: the checks in their order; where all pass, one entry of the inactive bank is replaced. -/
theorem loadRouteChecksThenReplacesOneEntry : Obligations.LoadRouteChecksThenReplacesOneEntry := by
  intro h r s p hi hw replied
  have refused : ∀ st, s.lin.checkLoadRoute r = st → st ≠ .done → replied s st := fun st hst hne =>
    exec_between (.loadRoute r) rfl p hi hw (by
      simp only [State.applyBetween, State.loadRoute, hst, beq_iff_eq, hne, if_false])
  refine ⟨fun hb => refused _ (s.lin.checkLoadRoute_badArgument hb) (by decide), fun k hk hindex hc hv =>
    ⟨fun ha => refused _ ?_ (by decide), fun ha => ?_⟩⟩
  · rw [s.lin.checkLoadRoute_eq hk hindex hc hv, if_pos ha]
  have hcheck := s.lin.checkLoadRoute_eq hk hindex hc hv
  rw [if_neg ha] at hcheck
  intro e fine
  have he : routeEntryOf r = e := by simp only [routeEntryOf, flagSet_eq, e]
  have hfine : (flagSet r.valid && !s.lin.routeOk (routeEntryOf r)) = true ↔ ¬ fine := by
    have hv' : ¬ r.valid = 0 ↔ r.valid = 1 := by omega
    simp only [fine, not_or, hv', Bool.and_eq_true, Bool.not_eq_true', ← Bool.not_eq_true, Lineage.routeOk_iff,
      flagSet_eq, decide_eq_true_eq]
    exact Iff.rfl
  refine ⟨fun hf => ?_, fun hf => refused _ (by rw [hcheck, if_pos (hfine.mpr hf)]) (by decide)⟩
  have hdone : s.lin.checkLoadRoute r = .done := by
    rw [hcheck, if_neg (fun hn => hfine.mp hn hf)]
  refine exec_between (.loadRoute r) rfl p hi hw ?_
  simp only [State.applyBetween, State.loadRoute, hdone, beq_self_eq_true, if_true, hk, Option.getD_some, he]
  rfl

/-- Settles O22: a time out of range, a full journal, or the clock set with its record. -/
theorem setClockSetsTheTime : Obligations.SetClockSetsTheTime := by
  intro h d sec c s p hi hw bad
  refine ⟨fun hb => exec_between (.setClock d sec c) rfl p hi hw ?_,
    fun hb hj => exec_between (.setClock d sec c) rfl p hi hw ?_, fun hb hj => ?_⟩
  · have hb' : 99999 < d ∨ 86399 < sec ∨ 99 < c := hb
    simp only [State.applyBetween, State.setClock, Bool.or_eq_true, decide_eq_true_eq, or_assoc, if_pos hb']
  · have hb' : ¬ (99999 < d ∨ 86399 < sec ∨ 99 < c) := hb
    simp only [State.applyBetween, State.setClock, Bool.or_eq_true, decide_eq_true_eq, or_assoc, if_neg hb', hj,
      beq_self_eq_true, if_true]
  · have hb' : ¬ (99999 < d ∨ 86399 < sec ∨ 99 < c) := hb
    have ha : s.applyBetween h.tag (.setClock d sec c) = (s.applyClock h.tag ⟨d, sec, c⟩, .done, []) := by
      simp only [State.applyBetween, State.setClock, Bool.or_eq_true, decide_eq_true_eq, or_assoc, if_neg hb', hj,
        beq_iff_eq, if_false]
    have heq : s.applyClock h.tag ⟨d, sec, c⟩ = { s with
        mgmt := { s.mgmt with clock := ⟨d, sec, c⟩, clockSet := true }
        lin := if d = s.mgmt.codeDay then s.lin else s.lin.resetSequences
        jrn := (s.jrn.write ⟨d, sec, c⟩ h.tag (.engineClock s.mgmt.clock s.mgmt.clockSet)).publish } := by
      simp only [State.applyClock, beq_iff_eq]
      split <;> rfl
    rw [heq] at ha
    refine ⟨_, exec_between (.setClock d sec c) rfl p hi hw ha, State.port_setPort_same _ _ _, ?_,
      State.setPort_mgmt _ _ _, State.setPort_jrn _ _ _, fun f hf => ?_, ?_⟩
    · rw [State.port_setPort_other]
      cases h.port <;> rfl
    · rw [State.setPort_lin]
      change (if d = s.mgmt.codeDay then s.lin else s.lin.resetSequences).filler f = { s.lin.filler f with
        seq := if d = s.mgmt.codeDay then (s.lin.filler f).seq else 1 }
      by_cases hd : d = s.mgmt.codeDay
      · rw [if_pos hd, if_pos hd]
      · rw [if_neg hd, if_neg hd, Lineage.filler_resetSequences s.lin hf]
    · cases h.port <;> dsimp only [State.setPort] <;> split <;> rfl

/-- LOAD_METER's update of one meter. -/
theorem State.loadMeter_ok {s : State} {m w num den j : Nat} (ok : m ≤ 47 ∧ (w = 16 ∨ w = 32) ∧ 1 ≤ num ∧ num ≤ 65535 ∧
    1 ≤ den ∧ den ≤ 65535 ∧ j ≤ 1000000000) :
    s.loadMeter m w num den j = (s.setLin (s.lin.setMeter m { s.lin.meter m with
      configured := true, width := w, num := num, den := den, jump := j, refValid := false, residue := 0 }), .done) := by
  refine if_pos ?_
  simp only [Bool.and_eq_true, decide_eq_true_eq, Bool.or_eq_true, beq_iff_eq, and_assoc]
  exact ok

theorem State.loadMeter_bad {s : State} {m w num den j : Nat} (bad : ¬ (m ≤ 47 ∧ (w = 16 ∨ w = 32) ∧ 1 ≤ num ∧
    num ≤ 65535 ∧ 1 ≤ den ∧ den ≤ 65535 ∧ j ≤ 1000000000)) : s.loadMeter m w num den j = (s, .badArgument) := by
  refine if_neg (mt (fun h => ?_) bad)
  simp only [Bool.and_eq_true, decide_eq_true_eq, Bool.or_eq_true, beq_iff_eq, and_assoc] at h
  exact h

/-- Cell i * 8 + j of the cells loaded is that of row i and column j (R11). -/
theorem merge_catTable (l : Lineage) {cells : List Nat} (hlen : cells.length = 64) (hc : ∀ x ∈ cells, x ≤ 7)
    (a b : Fin 8) :
    (({ l with catTab := catTable cells } : Lineage).merge (some a) (some b)).map Fin.val =
      cells[a.val * 8 + b.val]? := by
  have hlt : a.val * 8 + b.val < cells.length := by omega
  have hle : cells[a.val * 8 + b.val] ≤ 7 := hc _ (List.getElem_mem hlt)
  have hget : vget (vget (catTable cells) a.val (Vector.replicate 8 0)) b.val 0 =
      Fin.ofNat 8 (cells.getD (a.val * 8 + b.val) 0) := by
    rw [catTable, vget_lt _ _ _ a.isLt, Vector.getElem_ofFn, vget_lt _ _ _ b.isLt, Vector.getElem_ofFn]
  simp only [Lineage.merge, hget, Option.map_some, List.getElem?_eq_getElem hlt, List.getD_eq_getElem _ _ hlt,
    Fin.val_ofNat]
  rw [Nat.mod_eq_of_lt (by omega)]

theorem flagOfByte_gt {n : Nat} (h : 1 < n) : flagOfByte n = none := by
  unfold flagOfByte
  rw [if_neg (by simp; omega), if_neg (by simp; omega)]

theorem targetOfByte_gt {n : Nat} (h : 3 < n) : targetOfByte n = none := by
  unfold targetOfByte
  split <;> first | omega | rfl

theorem sourceOfByte_gt {n : Nat} (h : 5 < n) : sourceOfByte n = none := by
  unfold sourceOfByte
  split <;> first | omega | rfl

/-- A byte read as FILLER_HOLD is 1 (R183). -/
theorem sourceOfByte_fillerHold {n : Nat} : sourceOfByte n = some .fillerHold ↔ n = 1 := by
  unfold sourceOfByte
  split <;> simp_all

/-- Settles O21: each of the six is its check and one update. -/
theorem tablesAndSettingsAreReplacedOneByOne : Obligations.TablesAndSettingsAreReplacedOneByOne := by
  refine ⟨fun h m w num den j s p hi hw => ?meter, fun h cells s p hi hw hlen => ?category,
    fun h s hi hw => ⟨fun row rep tg p => ?cond, fun cause on p => ?content, fun pin src f pol p => ?output,
      fun n p => ?plant, fun c b n p => ?serials⟩⟩
  case meter =>
    refine ⟨fun ok => exec_between (.loadMeter m w num den j) rfl p hi hw ?_,
      fun bad => exec_between (.loadMeter m w num den j) rfl p hi hw ?_⟩
    · simp only [State.applyBetween, State.loadMeter_ok ok]
      rfl
    · simp only [State.applyBetween, State.loadMeter_bad bad]
  case category =>
    refine ⟨fun ⟨x, hx, h7⟩ => exec_between (.loadCategory cells) rfl p hi hw ?_, fun hall => ?_⟩
    · have : cells.all (· ≤ 7) = false := List.all_eq_false.mpr ⟨x, hx, by simpa using h7⟩
      simp only [State.applyBetween, State.loadCategory, this, Bool.false_eq_true, if_false]
    · have : cells.all (· ≤ 7) = true := List.all_eq_true.mpr fun x hx => decide_eq_true (hall x hx)
      have ha : s.applyBetween h.tag (.loadCategory cells) =
          ({ s with lin := { s.lin with catTab := catTable cells } }, .done, []) := by
        simp only [State.applyBetween, State.loadCategory, this, if_true]
        rfl
      refine ⟨_, exec_between (.loadCategory cells) rfl p hi hw ha, State.port_setPort_same _ _ _, ?_, ?_, fun a b => ?_⟩
      · rw [State.port_setPort_other]
        cases h.port <;> rfl
      · cases h.port <;> rfl
      · rw [State.setPort_lin]
        exact merge_catTable s.lin hlen hall a b
  case cond =>
    intro replied
    refine ⟨fun r t hr ht hrow => exec_between (.loadPolicy (.cond row rep tg)) rfl p hi hw ?_,
      fun hbad => exec_between (.loadPolicy (.cond row rep tg)) rfl p hi hw ?_⟩
    · simp only [State.applyBetween, State.loadPolicy, hr, ht, hrow, if_true]
      rfl
    · simp only [State.applyBetween, State.loadPolicy]
      rcases hbad with hb | hb | hb
      · simp only [flagOfByte_gt hb]
      · cases flagOfByte rep <;> simp only [targetOfByte_gt hb]
      · cases flagOfByte rep <;> cases targetOfByte tg <;> simp only [Nat.not_le.mpr hb, if_false]
  case content =>
    intro replied
    refine ⟨fun v hv => ⟨?_, ?_, ?_⟩, fun hbad => exec_between (.loadPolicy (.content cause on)) rfl p hi hw ?_⟩
    case refine_4 =>
      simp only [State.applyBetween, State.loadPolicy]
      rcases hbad with hb | hb
      · simp only [flagOfByte_gt hb]
      · split <;> first | omega | rfl
    all_goals
      rintro rfl
      refine exec_between (.loadPolicy (.content _ on)) rfl p hi hw ?_
      simp only [State.applyBetween, State.loadPolicy, hv]
      rfl
  case output =>
    intro replied
    refine ⟨fun x low hx hl hpin hf => exec_between (.loadOutput pin src f pol) rfl p hi hw ?_,
      fun hbad => exec_between (.loadOutput pin src f pol) rfl p hi hw ?_⟩
    · have hok : (decide (pin ≤ 11) && (x != .fillerHold || decide (f ≤ 7))) = true := by
        simpa [hpin, ← imp_iff_not_or] using hf
      simp only [State.applyBetween, State.loadOutput, hx, hl, hok, if_true]
      rfl
    · simp only [State.applyBetween, State.loadOutput]
      split
      · rename_i x low hx hl
        have hno : ¬ (decide (pin ≤ 11) && (x != .fillerHold || decide (f ≤ 7))) = true := by
          rcases hbad with hb | hb | hb | ⟨h1, h7⟩
          · simp [Nat.not_le.mpr hb]
          · simp [sourceOfByte_gt hb] at hx
          · simp [flagOfByte_gt hb] at hl
          · rw [sourceOfByte_fillerHold.mpr h1] at hx
            cases hx
            simp [Nat.not_le.mpr h7]
        rw [if_neg hno]
      · rfl
  case plant =>
    refine ⟨fun hn => exec_between (.setPlant n) rfl p hi hw ?_, fun hn => exec_between (.setPlant n) rfl p hi hw ?_⟩
    · simp only [State.applyBetween, State.setPlant, hn, if_true]
      rfl
    · simp only [State.applyBetween, State.setPlant, Nat.not_le.mpr hn, if_false]
  case serials =>
    refine ⟨fun hc hb hn => exec_between (.setSerials c b n) rfl p hi hw ?_,
      fun hbad => exec_between (.setSerials c b n) rfl p hi hw ?_⟩
    · have : (decide (c ≤ Config.serialMax) && decide (b ≤ Config.serialMax) &&
          decide (n ≤ Config.serialMax)) = true := by
        simp only [Bool.and_eq_true, decide_eq_true_eq]
        exact ⟨⟨hc, hb⟩, hn⟩
      simp only [State.applyBetween, State.setSerials, this, if_true, loadedSerial, beq_iff_eq]
      rfl
    · have : ¬ (decide (c ≤ Config.serialMax) && decide (b ≤ Config.serialMax) &&
          decide (n ≤ Config.serialMax)) = true := by
        simp only [Bool.and_eq_true, decide_eq_true_eq]
        rintro ⟨⟨hc, hb⟩, hn⟩
        exact hbad.elim (Nat.not_lt.mpr hc) (Or.rec (Nat.not_lt.mpr hb) (Nat.not_lt.mpr hn))
      simp only [State.applyBetween, State.setSerials, if_neg this]

end Sys2Proof.Machine

/-! Command frames as rows (R183), O6: what a code and its arguments spell is what the row they stand for
carries. -/

namespace Sys2Proof.Machine

open Sys2Proof

section parse

variable {l : List Byte}

theorem fixedLen_of_length {n : Nat} (h : l.length = n) (c : Command) : fixedLen l n c = some c :=
  if_pos (beq_iff_eq.mpr h)

theorem fixedLen_of_ne {n : Nat} (h : l.length ≠ n) (c : Command) : fixedLen l n c = none :=
  if_neg (mt beq_iff_eq.mp h)

/-- A key in four bytes: its kind in the upper half of the first, its serial in the rest (section 12.1). -/
theorem rawKeyOfNat_numAt! {off : Nat} (h : off + 4 ≤ l.length) :
    rawKeyOfNat (numAt! l off 4) =
      { kind := beNat ((l.drop off).take 1) / 16, serial := beNat ((l.drop off).take 4) % 2 ^ 28 } := by
  have hlen : 4 ≤ (l.drop off).length := by rw [List.length_drop]; omega
  unfold rawKeyOfNat numAt!
  match l.drop off, hlen with
  | a :: b :: c :: d :: t, _ =>
    have hb := b.isLt
    have hc := c.isLt
    have hd := d.isLt
    simp only [List.take_succ_cons, List.take_zero, beNat, List.foldl_cons, List.foldl_nil, RawKey.mk.injEq, and_true]
    omega

/-- The entries of a VESSEL_WRITE stand 9 bytes apart (R183). -/
theorem parseEntries_eq (k off : Nat) (h : off + 9 * k ≤ l.length) :
    parseEntries k (l.drop off) = (List.range k).map (fun j =>
      { key := rawKeyOfNat (numAt! l (off + 9 * j) 4), cat := numAt! l (off + 9 * j + 4) 1,
        vol := numAt! l (off + 9 * j + 5) 4 }) := by
  induction k generalizing off with
  | zero => rfl
  | succ k ih =>
    have hshift : ∀ j, off + 9 + 9 * j = off + 9 * (j + 1) := fun j => by omega
    rw [List.range_succ_eq_map, List.map_cons, List.map_map, parseEntries, List.drop_drop, ih (off + 9) (by omega)]
    simp only [numAt!, List.drop_drop, Nat.add_zero, Nat.mul_zero, hshift, Function.comp_def, Nat.succ_eq_add_one]

/-- LOAD_OVERRIDE, by its enable byte. -/
theorem parseOverride_row (h : CmdHdr) (l : List Byte) :
    parseOverride l = (((flagOfByte (numAt! l 1 1)).map fun on => Instr.loadOverride h (numAt! l 0 1)
      ⟨on, numAt! l 2 1, BitVec.ofNat 16 (numAt! l 3 2), BitVec.ofNat 16 (numAt! l 5 2)⟩).bind commandOf).map Prod.snd := by
  unfold parseOverride
  cases flagOfByte (numAt! l 1 1) <;> rfl

/-- LOAD_POLICY, by its row byte. -/
theorem parsePolicy_row (h : CmdHdr) (l : List Byte) :
    some (parsePolicy l) = ((some (Instr.loadPolicy h (if 20 ≤ numAt! l 0 1 ∧ numAt! l 0 1 ≤ 22
      then .content (numAt! l 0 1 - 20) (numAt! l 1 1)
      else .cond (numAt! l 0 1) (numAt! l 1 1) (numAt! l 2 1)))).bind commandOf).map Prod.snd := by
  unfold parsePolicy
  simp only [Bool.and_eq_true, decide_eq_true_eq, Option.bind_some, commandOf, Option.map_some]
  split <;> rfl

/-- The fields of a LOAD_MATCH stand 3 bytes apart, those behind a MANIFEST's volume one byte later. -/
theorem parseFields_eq (c : ItemClass) (l : List Byte) :
    parseFields (c == .manifest) 0 c.widths (l.drop 12) =
      (List.range c.widths.length).map (fun k =>
        ⟨numAt! l (12 + 3 * k + if c = ItemClass.manifest ∧ 4 ≤ k then 1 else 0) 2,
         numAt! l (14 + 3 * k + if c = ItemClass.manifest ∧ 4 ≤ k then 1 else 0) 1⟩) := by
  cases c <;> simp [parseFields, ItemClass.widths, List.range_succ, numAt!, List.drop_drop]

/-- The configuration of a LOAD_VESSEL, by its length and its kind byte. -/
theorem parseVesselCfg_eq (l : List Byte) : parseVesselCfg l =
    if l.length = 2 ∧ numAt! l 1 1 = 0 then some .unconfigured
    else if l.length = 6 ∧ numAt! l 1 1 = 1 then some (.store (numAt! l 2 4))
    else if l.length = 4 ∧ numAt! l 1 1 = 2 then some (.bay (numAt! l 2 1) (numAt! l 3 1))
    else if l.length = 15 ∧ numAt! l 1 1 = 3 then
      some (.filler (numAt! l 2 1) (numAt! l 3 1) (numAt! l 4 6) (numAt! l 10 1) (numAt! l 11 2) (numAt! l 13 2))
    else none := by
  unfold parseVesselCfg
  split
  · rename_i hk hl; simp [hk, hl]
  · rename_i hk hl; simp [hk, hl]
  · rename_i hk hl; simp [hk, hl]
  · rename_i hk hl; simp [hk, hl]
  · rename_i h0 h1 h2 h3
    rw [if_neg (fun h => h0 h.2 h.1), if_neg (fun h => h1 h.2 h.1), if_neg (fun h => h2 h.2 h.1),
      if_neg (fun h => h3 h.2 h.1)]

/-- A command whose argument is a key. -/
theorem parse_key (hlen : l.length = 4) (c : RawKey → Command) :
    fixedLen l 4 (c (keyArg l)) =
      some (c { kind := numAt! l 0 1 / 16, serial := numAt! l 0 4 % 2 ^ 28 }) := by
  rw [fixedLen_of_length hlen, keyArg, rawKeyOfNat_numAt! (by omega)]
  rfl

/-- LOAD_MATCH, by its class, its valid byte and its length. -/
theorem parseMatch_row (h : CmdHdr) (l : List Byte) :
    parseMatch l = ((match ItemClass.ofCode (numAt! l 7 1), flagOfByte (numAt! l 1 1),
        (ItemClass.ofCode (numAt! l 7 1)).bind
          (fun c => if c = ItemClass.manifest then unitOfByte (numAt! l 24 1) else some .cl) with
      | some c, some valid, some u =>
        if l.length = 12 + 3 * c.widths.length + (if c = ItemClass.manifest ∧ 4 ≤ 4 then 1 else 0) then
          some (Instr.loadMatch h (numAt! l 0 1)
            { valid := valid, base := numAt! l 2 2, limit := numAt! l 4 2, kind := numAt! l 6 1, cls := c,
              objBase := numAt! l 8 1, count := numAt! l 9 1, stride := numAt! l 10 2, volUnit := u
              fields := (List.range c.widths.length).map (fun k =>
                ⟨numAt! l (12 + 3 * k + if c = ItemClass.manifest ∧ 4 ≤ k then 1 else 0) 2,
                 numAt! l (14 + 3 * k + if c = ItemClass.manifest ∧ 4 ≤ k then 1 else 0) 1⟩) })
        else none
      | _, _, _ => none).bind commandOf).map Prod.snd := by
  unfold parseMatch
  cases hc : ItemClass.ofCode (numAt! l 7 1) with
  | none => rfl
  | some c =>
    cases hv : flagOfByte (numAt! l 1 1) with
    | none => rfl
    | some valid =>
      have hlen : (12 + 3 * c.widths.length + if c = ItemClass.manifest ∧ 4 ≤ 4 then 1 else 0) = matchArgLen c := by
        simp [matchArgLen]
      simp only [Option.bind_some, beq_iff_eq]
      cases (if c = ItemClass.manifest then unitOfByte (numAt! l 24 1) else some VolUnit.cl) with
      | none => simp only [ite_self]; rfl
      | some u =>
        by_cases hl : l.length = matchArgLen c
        · simp only [if_pos hl, if_pos (hl.trans hlen.symm), parseFields_eq]
          rfl
        · have hl' := hl
          rw [← hlen] at hl'
          simp only [if_neg hl, if_neg hl']
          rfl

/-- LOAD_VESSEL, by its length and its kind byte. -/
theorem parse_loadVessel {k : Nat} {cfg : VesselCfg} (h : CmdHdr)
    (hcfg : parseVesselCfg l = if numAt! l 1 1 = k then some cfg else none) :
    parseCommand 0x13 l = ((if numAt! l 1 1 = k then some (Instr.loadVessel h (numAt! l 0 1) cfg)
      else none).bind commandOf).map Prod.snd := by
  change (parseVesselCfg l).map (fun cfg => Command.between (.loadVessel (numAt! l 0 1) cfg)) = _
  rw [hcfg]
  split <;> rfl

/-- VESSEL_WRITE, by its length and its count byte. -/
theorem parseWrite_row (h : CmdHdr) (l : List Byte) :
    parseWrite l = ((if 4 ≤ l.length ∧ l.length = 4 + 9 * numAt! l 3 1 then
        some (Instr.vesselWrite h
          { vessel := numAt! l 0 1, cat := numAt! l 1 1, uncertain := numAt! l 2 1
            entries := (List.range (numAt! l 3 1)).map (fun k =>
              { key := { kind := numAt! l (4 + 9 * k) 1 / 16, serial := numAt! l (4 + 9 * k) 4 % 2 ^ 28 },
                cat := numAt! l (8 + 9 * k) 1, vol := numAt! l (9 + 9 * k) 4 }) })
      else none).bind commandOf).map Prod.snd := by
  unfold parseWrite
  simp only [Bool.and_eq_true, decide_eq_true_eq, beq_iff_eq]
  by_cases hl : 4 ≤ l.length ∧ l.length = 4 + 9 * numAt! l 3 1
  · rw [if_pos hl, if_pos hl, parseEntries_eq _ _ hl.2.ge]
    refine congrArg (fun es => some (Command.queued (.vesselWrite
      { vessel := numAt! l 0 1, cat := numAt! l 1 1, uncertain := numAt! l 2 1, entries := es }))) ?_
    refine List.map_congr_left fun k hk => ?_
    have hk' := List.mem_range.mp hk
    rw [rawKeyOfNat_numAt! (by omega)]
    simp only [numAt!, WriteEntry.mk.injEq, true_and]
    exact ⟨congrArg (fun o => beNat ((l.drop o).take 1)) (by omega), congrArg (fun o => beNat ((l.drop o).take 4)) (by omega)⟩
  · rw [if_neg hl, if_neg hl]
    rfl

/-- What a code and its arguments spell is the command of the row that stands for them (R183). -/
theorem parse_frameRow (h : CmdHdr) (code : Nat) (l : List Byte) :
    parseCommand code l = ((frameRow h code l).bind commandOf).map Prod.snd := by
  unfold frameRow
  extract_lets n word key cond cls unitAt late
  split
  case h_2 => exact parseMatch_row h l
  case h_4 hlen => exact (if_pos (beq_iff_eq.mpr hlen)).trans (parseOverride_row h l)
  case h_5 hlen => exact parse_loadVessel h (by simp [parseVesselCfg_eq, hlen])
  case h_6 hlen => exact parse_loadVessel h (by simp [parseVesselCfg_eq, hlen]; rfl)
  case h_7 hlen => exact parse_loadVessel h (by simp [parseVesselCfg_eq, hlen]; rfl)
  case h_8 hlen => exact parse_loadVessel h (by simp [parseVesselCfg_eq, hlen]; rfl)
  case h_12 hlen => exact (fixedLen_of_length hlen _).trans (parsePolicy_row h l)
  case h_19 hlen => exact parse_key hlen (fun k => .between (.readKey k))
  case h_27 => exact parseWrite_row h l
  case h_33 hlen => exact parse_key hlen (fun k => .queued (.suspectKey k))
  case h_36 hlen => exact parse_key hlen (fun k => .queued (.releaseKey k))
  case h_40 =>
    unfold parseCommand parseDirect parseQueued
    split
    · split
      case h_2 => solve_by_elim
      case h_4 => exact if_neg (mt beq_iff_eq.mp (by solve_by_elim))
      case h_5 =>
        have hcfg : parseVesselCfg l = none := by
          rw [parseVesselCfg_eq, if_neg (fun hl => ?_), if_neg (fun hl => ?_), if_neg (fun hl => ?_),
            if_neg (fun hl => ?_)] <;> exact absurd hl.1 (by solve_by_elim)
        rw [hcfg]
        rfl
      case h_23 => rfl
      all_goals exact fixedLen_of_ne (by solve_by_elim) _
    · split
      case h_2 => solve_by_elim
      case h_15 => rfl
      all_goals exact fixedLen_of_ne (by solve_by_elim) _
  all_goals
    rename_i hlen
    exact fixedLen_of_length hlen _

end parse

/-- The row of a frame carries the frame's header, its code, and a layout of its arguments' length (R183). -/
theorem commandOf_frameRow {h : CmdHdr} {code : Nat} {l : List Byte} {i : Instr}
    (hi : frameRow h code l = some i) :
    ∃ c, commandOf i = some (h, c) ∧ commandCode c = code ∧ hasLayout c = true ∧ commandArgLen c = l.length := by
  unfold frameRow at hi
  extract_lets n word key cond cls unitAt late at hi
  split at hi
  case h_2 =>
    split at hi
    · rename_i c valid u _ _ _
      split at hi
      · rename_i hlen
        obtain rfl := Option.some.inj hi
        refine ⟨_, rfl, rfl, rfl, ?_⟩
        rw [hlen]
        simp [commandArgLen, atOnceArgLen, matchArgLen, late]
      · cases hi
    · cases hi
  case h_4 hlen =>
    obtain ⟨on, _, rfl⟩ := Option.map_eq_some_iff.mp hi
    exact ⟨_, rfl, rfl, rfl, hlen.symm⟩
  case h_27 =>
    split at hi
    · rename_i hlen
      obtain rfl := Option.some.inj hi
      refine ⟨_, rfl, rfl, rfl, ?_⟩
      rw [hlen.2]
      simp [commandArgLen, queuedArgLen]
    · cases hi
  case h_5 hlen | h_6 hlen | h_7 hlen | h_8 hlen =>
    obtain ⟨_, hi⟩ := Option.ite_none_right_eq_some.mp hi
    obtain rfl := Option.some.inj hi
    exact ⟨_, rfl, rfl, rfl, hlen.symm⟩
  case h_40 => cases hi
  all_goals
    rename_i hlen
    obtain rfl := Option.some.inj hi
    exact ⟨_, rfl, rfl, rfl, hlen.symm⟩

/-- The arguments of a frame whose payload holds them. -/
theorem parseArgs_eq {f : Frame} (hf : 64 ≤ f.length) :
    parseArgs f = if numAt! (Frame.payload f) 4 2 ≤ (Frame.payload f).length - 6 then
      some (((Frame.payload f).drop 6).take (numAt! (Frame.payload f) 4 2)) else none := by
  have hlen : (Frame.payload f).length = f.length - 18 := by
    rw [Frame.payload, List.length_take, List.length_drop]
    omega
  unfold parseArgs bytesAt
  refine if_congr ?_ rfl rfl
  omega

/-- A good command frame on a port that is UP is accepted with what its code and its arguments spell. -/
theorem exec_frameReceive_command {p : Port} {f : Frame} {s : State} (hr : s.resetAsserted = false)
    (hu : (s.port p).linkUp = true) (h1 : 64 ≤ f.length) (h2 : f.length ≤ 1518) (hd : Frame.dst f = s.station)
    (ht : Frame.etherType f = 0x9C5A) :
    exec (.frameReceive p true f) s = .next (s.accept (parseHeader p f) (numAt! (Frame.payload f) 1 1)
      ((parseArgs f).bind (parseCommand (numAt! (Frame.payload f) 1 1)))) := by
  rw [exec_frameReceive hr hu, State.receive, (frameGood_iff true f).mpr ⟨rfl, h1, h2⟩,
    (s.isCommandFrame_iff f).mpr ⟨hd, ht⟩]
  rfl

/-- Settles O6: where the frame spells a row, both run the same acceptance; where it spells none, the checks of
R173 as O13 has them. -/
theorem commandFramesActAsTheirRows : Obligations.CommandFramesActAsTheirRows := by
  intro p f s hr hu h1 h2 hd ht payload n h args refused full
  have hx : exec (.frameReceive p true f) s =
      .next (s.accept h (n 1 1) ((parseArgs f).bind (parseCommand (n 1 1)))) :=
    exec_frameReceive_command hr hu h1 h2 hd ht
  have hargs : parseArgs f = if h.argLen ≤ h.avail then some args else none := parseArgs_eq h1
  rw [hx]
  refine ⟨fun i hfit hi => ?row, fun hnone => ?none⟩
  case row =>
    obtain ⟨c, hc, hcode, hlay, hlen⟩ := commandOf_frameRow hi
    have hal : args.length = h.argLen := by
      rw [List.length_take, List.length_drop]
      exact Nat.min_eq_left hfit
    have hform : formOk h c = true := by
      simp only [formOk, hlay, hlen, hal, beq_self_eq_true, hfit, decide_true, Bool.and_self]
    rw [exec_accept hc hr hu, hform, hcode, if_pos rfl, hargs, if_pos hfit, Option.bind_some,
      parse_frameRow h, hi, Option.bind_some, hc]
    rfl
  case none =>
    have hparse : (parseArgs f).bind (parseCommand (n 1 1)) = none := by
      rw [hargs]
      split
      · rename_i hfit
        rw [Option.bind_some, parse_frameRow h, hnone.resolve_left (Nat.not_lt.mpr hfit)]
        rfl
      · rfl
    rw [hparse]
    refine ⟨fun hv => ?_, fun hv hroom => ?_, fun hv hroom hp => ?_, fun hv hroom hp => ?_⟩
    · rw [State.accept_wrong_version hv]
    · rw [State.accept_no_room hv hroom]
    · rw [State.accept_reserved hv (Nat.not_le.mp hroom), State.checkReserved_not_permitted hu hp]
    · rw [State.accept_reserved hv (Nat.not_le.mp hroom), State.checkReserved_bad_form hu hp]

end Sys2Proof.Machine

/-! All meters at once (R94, R96), and the CLEAR_ENGINE operation (R162), O23: the fold over the meters is one
map, the closes of step 2 bear on what step 3 empties. -/

namespace Sys2Proof.Machine

open Sys2Proof

/-! ## All meters at once -/

section meters

variable (l : Lineage)

/-- Meters changed one after another are changed each on its own. -/
theorem Lineage.foldl_updMeter (f : Nat → Meter → Meter) (n : Nat) :
    (List.range n).foldl (fun acc m => acc.updMeter m (f m)) l =
      { l with meters := l.meters.mapIdx (fun m x => if m < n then f m x else x) } := by
  induction n with
  | zero =>
    have h : l.meters.mapIdx (fun m x => if m < 0 then f m x else x) = l.meters :=
      vec_ext _ {} _ fun i hi => by rw [vget_mapIdx (d := {}) (h := hi), if_neg (Nat.not_lt_zero i)]
    rw [h]
    rfl
  | succ n ih =>
    rw [List.range_succ, List.foldl_append, ih, List.foldl_cons, List.foldl_nil]
    have h : vset (l.meters.mapIdx (fun m x => if m < n then f m x else x)) n
          (f n (vget (l.meters.mapIdx (fun m x => if m < n then f m x else x)) n {})) =
        l.meters.mapIdx (fun m x => if m < n + 1 then f m x else x) := by
      refine vec_ext _ {} _ fun i hi => ?_
      rw [vget_vset, vget_mapIdx (d := {}) (h := hi), vget_mapIdx (d := {}) (h := hi)]
      by_cases hni : n = i
      · subst hni
        rw [if_pos ⟨rfl, hi⟩, vget_mapIdx (d := {}) (h := hi), if_neg (Nat.lt_irrefl n), if_pos (Nat.lt_succ_self n)]
      · rw [if_neg (fun h => hni h.1)]
        exact if_congr (by omega) rfl rfl
    unfold Lineage.updMeter Lineage.setMeter Lineage.meter
    rw [h]

/-- Every meter's route set to its resolution, in one equation. -/
theorem Lineage.resolveAll_eq : l.resolveAll =
    { l with meters := l.meters.mapIdx (fun m x => { x with route := l.resolve m }) } := by
  have h : l.meters.mapIdx (fun m x => if m < 48 then { x with route := l.resolve m } else x) =
      l.meters.mapIdx (fun m x => { x with route := l.resolve m }) :=
    vec_ext _ {} _ fun i hi => by rw [vget_mapIdx (d := {}) (h := hi), vget_mapIdx (d := {}) (h := hi), if_pos hi]
  rw [← h]
  exact l.foldl_updMeter (fun m x => { x with route := l.resolve m }) 48

/-- A new segment for every meter, in one equation. -/
theorem Lineage.openAll_eq (now : TimeStamp) : l.openAll now =
    { l with meters := l.meters.mapIdx (fun _ x => { x with seg := { start := now } }) } := by
  have h : l.meters.mapIdx (fun m x => if m < 48 then { x with seg := { start := now } } else x) =
      l.meters.mapIdx (fun _ x => { x with seg := { start := now } }) :=
    vec_ext _ {} _ fun i hi => by rw [vget_mapIdx (d := {}) (h := hi), vget_mapIdx (d := {}) (h := hi), if_pos hi]
  rw [← h]
  exact l.foldl_updMeter (fun _ x => { x with seg := { start := now } }) 48

/-- Every meter resolved anew with a new segment: nothing but the meters changes, and a resolution reads no
meter. -/
theorem Lineage.resolveOpen_eq (now : TimeStamp) : l.resolveAll.openAll now =
    { l with meters := l.meters.mapIdx (fun m x => { x with route := l.resolve m, seg := { start := now } }) } := by
  rw [Lineage.resolveAll_eq, Lineage.openAll_eq]
  have h : (l.meters.mapIdx (fun m x => { x with route := l.resolve m })).mapIdx
        (fun _ x => { x with seg := { start := now } }) =
      l.meters.mapIdx (fun m x => { x with route := l.resolve m, seg := { start := now } }) :=
    vec_ext _ {} _ fun i hi => by
      rw [vget_mapIdx (d := {}) (h := hi), vget_mapIdx (d := {}) (h := hi), vget_mapIdx (d := {}) (h := hi)]
  rw [h]

theorem Lineage.resolveOpen_meter (now : TimeStamp) {m : Nat} (hm : m < 48) :
    (l.resolveAll.openAll now).meter m = { l.meter m with route := l.resolve m, seg := { start := now } } := by
  rw [Lineage.resolveOpen_eq]
  exact vget_mapIdx _ _ ({} : Meter) _ _ hm

end meters

/-! ## Every open batch closed -/

/-- The records of step 2 of a clear: one for each open batch of some fillers (R118). -/
def State.closings (s : State) (fs : List Nat) : List Payload :=
  fs.filterMap (fun f => (s.lin.filler f).openBatch.map (fun b => .batchClosed (b.closedAs s.now .clear) none))

/-- Batches closed filler by filler: the records in their order, and of the fillers only what a clear empties
behind it. -/
theorem State.closeBatches_eq (tag : Nat) (fs : List Nat) (s : State) (hn : fs.Nodup) :
    ∃ xs, fs.foldl (fun acc f => acc.closeBatch f .clear tag none .idle) s =
        { s with lin := { s.lin with fillers := xs }, jrn := s.jrn.writeAll s.now tag (s.closings fs) } ∧
      xs.map Filler.cleared = s.lin.fillers.map Filler.cleared := by
  induction fs generalizing s with
  | nil => exact ⟨s.lin.fillers, rfl, rfl⟩
  | cons f fs ih =>
    obtain ⟨hf, hn'⟩ := List.nodup_cons.mp hn
    rw [List.foldl_cons]
    cases hb : (s.lin.filler f).openBatch with
    | none =>
      have hc : s.closeBatch f .clear tag none .idle = s := by simp only [State.closeBatch, hb]
      have hcl : s.closings (f :: fs) = s.closings fs := by
        rw [State.closings, List.filterMap_cons_none (by rw [hb]; rfl)]
        rfl
      rw [hc, hcl]
      exact ih s hn'
    | some b =>
      let x : Filler := { s.lin.filler f with
        ring := modifyLast (fun _ => b.closedAs s.now .clear) (s.lin.filler f).ring, timer := none, state := .idle }
      let u := (s.setLin (s.lin.setFiller f x)).write tag (.batchClosed (b.closedAs s.now .clear) none)
      have hc : s.closeBatch f .clear tag none .idle = u := by simp only [State.closeBatch, hb]; rfl
      have hcl : s.closings (f :: fs) = .batchClosed (b.closedAs s.now .clear) none :: u.closings fs := by
        rw [State.closings, List.filterMap_cons_some (by rw [hb]; rfl)]
        refine congrArg _ (List.filterMap_congr fun g hg => ?_)
        have hne : f ≠ g := fun e => hf (e ▸ hg)
        change _ = ((s.lin.setFiller f x).filler g).openBatch.map _
        rw [Lineage.setFiller_ne hne]
        rfl
      obtain ⟨xs, hxs, hclear⟩ := ih u hn'
      refine ⟨xs, ?_, hclear.trans ?_⟩
      · rw [hc, hxs, hcl]
        rfl
      · refine vec_ext _ {} _ fun i hi => ?_
        rw [vget_map (d := {}) (h := hi), vget_map (d := {}) (h := hi)]
        change (((s.lin.setFiller f x).filler i)).cleared = _
        by_cases hfi : f = i
        · subst hfi
          rw [Lineage.setFiller_same hi]
          rfl
        · rw [Lineage.setFiller_ne hfi]
          rfl

/-! ## The clear -/

/-- The HOLD records of a clear: one for each hold that was not as empty as the clear leaves it (R143). -/
def HoldUnit.clearings (h : HoldUnit) : List Payload :=
  ((List.range 9).filter (fun i => decide (h.view i ≠ {}))).map (fun i => .hold
    { hold := holdByte i, action := .clear, result := .done, before := h.view i, after := {}, batch := none })

/-- The records of a clear, in their order (R162). -/
def State.clearRecords (s : State) : List Payload :=
  s.closings (List.range 8) ++ s.hold.clearings ++
    [.engineClear s.evq.length (gapStanding s.evq) s.lin.openCount]

section clear

variable (l : Lineage) (now : TimeStamp)

/-- The lineage state after a clear: what step 3 empties, and every meter resolved anew. -/
theorem Lineage.cleared_eq : l.cleared now =
    (let k := { l with
      vessels := l.vessels.map Vessel.cleared
      meters := l.meters.map Meter.cleared
      colls := []
      blends := []
      rings := Vector.replicate 8 Ring.cleared
      clusters := Vector.replicate 32 {}
      fillers := l.fillers.map Filler.cleared }
    { k with meters := k.meters.mapIdx (fun m x => { x with route := k.resolve m, seg := { start := now } }) }) :=
  Lineage.resolveOpen_eq _ now

theorem Lineage.cleared_filler {f : Nat} (hf : f < 8) : (l.cleared now).filler f = (l.filler f).cleared := by
  rw [Lineage.cleared_eq]
  exact vget_map _ _ ({} : Filler) _ _ hf

theorem Lineage.cleared_vessel {v : Nat} (hv : v < 64) : (l.cleared now).vessel v = (l.vessel v).cleared := by
  rw [Lineage.cleared_eq]
  exact vget_map _ _ ({} : Vessel) _ _ hv

theorem Lineage.cleared_ring (b : Nat) : (l.cleared now).ring b = Ring.cleared := by
  rw [Lineage.cleared_eq]
  by_cases hb : b < 8
  · exact vget_replicate (h := hb) ..
  · simp [Lineage.ring, vget, hb, Ring.cleared]

theorem Lineage.cleared_resolve (m : Nat) : (l.cleared now).resolve m =
    { l with clusters := Vector.replicate 32 {} }.resolve m := by
  rw [Lineage.cleared_eq]
  rfl

theorem Lineage.cleared_meter {m : Nat} (hm : m < 48) : (l.cleared now).meter m =
    { (l.meter m).cleared with route := (l.cleared now).resolve m, seg := { start := now } } := by
  rw [Lineage.cleared_resolve, Lineage.cleared_eq]
  refine (vget_mapIdx _ _ ({} : Meter) _ _ hm).trans ?_
  rw [vget_map _ _ ({} : Meter) _ _ hm]
  rfl

/-- A clear does the same to lineage states that differ in what it empties of the fillers. -/
theorem Lineage.cleared_congr {xs : Vector Filler 8} (h : xs.map Filler.cleared = l.fillers.map Filler.cleared) :
    { l with fillers := xs }.cleared now = l.cleared now := by
  rw [Lineage.cleared_eq, Lineage.cleared_eq]
  simp only [h]

theorem Filler.openBatch_of_idle {x : Filler} (h : x.state ≠ .batchOpen) : x.openBatch = none := by
  unfold Filler.openBatch
  rw [if_neg (mt beq_iff_eq.mp h)]

/-- Step 1 of a clear takes no batch. -/
theorem State.clearQueue_filler (s : State) {f : Nat} (hf : f < 8) :
    s.clearQueue.lin.filler f = { s.lin.filler f with pendingIdle := none } :=
  vget_map _ _ ({} : Filler) _ _ hf

theorem State.clearQueue_closings (s : State) : s.clearQueue.closings (List.range 8) = s.closings (List.range 8) := by
  refine List.filterMap_congr fun f hf => ?_
  rw [State.clearQueue_filler s (List.mem_range.mp hf)]
  rfl

/-- A hold with an empty latch set and no open batch is as reset leaves it. -/
theorem State.holdView_of_cleared {s : State} {i : Nat} (hl : s.hold.latch i = 0) (hb : s.holdBatch i = none) :
    s.holdView i = {} := by
  simp only [State.holdView, hl, hb]
  rfl

/-- A vector of which every entry is written holds what was written. -/
theorem foldl_vset_replicate {α : Type} {n : Nat} (v : Vector α n) (x : α) :
    (List.range n).foldl (fun v i => vset v i x) v = Vector.replicate n x :=
  vec_ext _ x _ fun i hi => by rw [vget_foldl_vset (fun _ => x) x v n i hi hi, vget_replicate (h := hi)]

/-- The CLEAR_ENGINE operation, in one equation (R162). -/
theorem State.clearOperation_eq (s : State) (tag : Nat) :
    s.clearOperation tag =
      { s with
        evq := []
        dec := { s.dec with valveFilter := Vector.replicate 32 none }
        lin := s.lin.cleared s.now
        hold := { s.hold with latches := Vector.replicate 9 0, shown := Vector.replicate 9 {} }
        jrn := (s.jrn.writeAll s.now tag s.clearRecords).publish } := by
  obtain ⟨xs, hxs, hclear⟩ := State.closeBatches_eq tag (List.range 8) s.clearQueue List.nodup_range
  have hlin : ({ s.clearQueue.lin with fillers := xs } : Lineage).cleared s.now = s.lin.cleared s.now := by
    refine (Lineage.cleared_congr s.lin s.now (xs := xs) (hclear.trans ?_))
    refine vec_ext _ {} _ fun i hi => ?_
    rw [vget_map (d := {}) (h := hi), vget_map (d := {}) (h := hi)]
    exact (congrArg Filler.cleared (State.clearQueue_filler s hi)).trans rfl
  have hbatches : (s.clearQueue.clearBatches tag).setLin ((s.clearQueue.clearBatches tag).lin.cleared s.now) =
      { s with
        evq := []
        dec := { s.dec with valveFilter := Vector.replicate 32 none }
        lin := s.lin.cleared s.now
        jrn := s.jrn.writeAll s.now tag (s.closings (List.range 8)) } := by
    rw [State.clearBatches, hxs, ← hlin, ← s.clearQueue_closings]
    rfl
  let u : State := { s with
    evq := []
    dec := { s.dec with valveFilter := Vector.replicate 32 none }
    lin := s.lin.cleared s.now
    hold := s.hold.cleared
    jrn := s.jrn.writeAll s.now tag (s.closings (List.range 8)) }
  have hbatch : ∀ i, u.holdBatch i = none := fun i => by
    unfold State.holdBatch
    split
    · rename_i hi
      change ((s.lin.cleared s.now).filler i).openBatch = none
      rw [Lineage.cleared_filler _ _ hi]
      exact Filler.openBatch_of_idle nofun
    · rfl
  have hview : ∀ i, i < 9 → u.holdView i = {} := fun i hi =>
    State.holdView_of_cleared (vget_replicate (h := hi) ..) (hbatch i)
  have hev := State.evaluate_spec u tag .clear []
  have hshown : (List.range 9).foldl (fun v i => vset v i (u.holdView i)) u.hold.shown = Vector.replicate 9 {} := by
    rw [← foldl_vset_replicate u.hold.shown {}]
    exact List.foldl_ext _ _ _ fun v i hi => by rw [hview i (List.mem_range.mp hi)]
  have hrecs : ((List.range 9).filter (u.holdMoved [])).map (u.holdPayload .clear []) = s.hold.clearings := by
    unfold HoldUnit.clearings
    rw [List.filter_congr (q := fun i => decide (s.hold.view i ≠ {})) fun i hi => ?_]
    · refine List.map_congr_left fun i hi => ?_
      rw [State.holdPayload, hview i (List.mem_range.mp (List.mem_of_mem_filter hi)), hbatch]
      rfl
    · rw [State.holdMoved, hview i (List.mem_range.mp hi)]
      simp [bne, beq_eq_decide]
      rfl
  rw [hshown, hrecs] at hev
  have hclear : s.clearOperation tag =
      (let t := (u.evaluate tag .clear []).write tag (.engineClear s.evq.length (gapStanding s.evq) s.lin.openCount)
      t.setJrn t.jrn.publish) := by
    have hnow : (s.clearQueue.clearBatches tag).now = s.now := by
      rw [State.clearBatches, hxs]
      rfl
    unfold State.clearOperation
    dsimp only
    rw [hnow, hbatches]
    rfl
  rw [hclear, hev, State.clearRecords, Journal.writeAll_append, Journal.writeAll_append]
  rfl

end clear

/-! ## The answer and the row -/

section answer

variable (s : State) (p : Port) (lost : Bool) (r : Reply)

/-- The port of a waiting command after its answer (R174). -/
def PortState.settledReply (x : PortState) (lost : Bool) (r : Reply) : PortState :=
  if lost = true ∨ x.linkUp = false then
    { x with reservations := x.reservations - 1, linkLoss := tick32 x.linkLoss }
  else { x with reservations := x.reservations - 1, inj := x.inj ++ [.reply r] }

theorem State.answer_eq : s.answer p lost r = s.setPort p ((s.port p).settledReply lost r) := by
  unfold State.answer PortState.settledReply
  simp only [Bool.or_eq_true, Bool.not_eq_true', ← apply_ite]

theorem State.settle_of_empty {s : State} (h : s.evq = []) : s.settle = s := by
  simp [State.settle, State.mayTake, h]

/-- The clear at the head of the waiting commands, applied and answered. -/
theorem State.applyClear_eq {s : State} {w : Waiting} {rest : List Waiting} (hr : s.resetAsserted = false)
    (hi : s.inFlight = none) (hw : s.waiting = w :: rest) (hc : w.cmd = .clear) (hj : 80 ≤ s.jrn.free) :
    s.applyClear = ((s.clearOperation w.tag).setWaiting rest).setPort w.port
      ((s.port w.port).settledReply w.lost ⟨w.source, 0x3F, w.tag, .done, []⟩) := by
  have hgo : (s.resetAsserted || s.inFlight.isSome || w.cmd != .clear ||
      decide (s.jrn.free < Config.journalReserve)) = false := by
    rw [hr, hi, hc, decide_eq_false (p := s.jrn.free < Config.journalReserve) (Nat.not_lt.mpr hj)]
    rfl
  simp only [State.applyClear, hw, hgo, Bool.false_eq_true, if_false, State.answer_eq]
  rw [State.settle_of_empty (by rw [State.setPort_evq, State.setWaiting_evq, State.clearOperation_eq])]
  have hport : ((s.clearOperation w.tag).setWaiting rest).port w.port = s.port w.port := by
    rw [State.port_setWaiting, State.clearOperation_eq]
    cases w.port <;> rfl
  rw [hport]

end answer

/-- Settles O23: the operation's one equation, read part by part. -/
theorem clearEngineEmptiesTheEngine : Obligations.ClearEngineEmptiesTheEngine := by
  intro w rest s hr hi hw hc hj
  refine ⟨_, congrArg Host.Outcome.next (State.applyClear_eq hr hi hw hc hj), ?_⟩
  simp only [State.setPort_evq, State.setPort_inFlight, State.setPort_waiting, State.setPort_resetAsserted,
    State.setPort_pending, State.setPort_dec, State.setPort_lin, State.setPort_hold, State.setPort_mgmt,
    State.setPort_jrn, State.clearOperation_eq]
  refine ⟨rfl, hi, rfl, hr, rfl, fun q => ?port, rfl, ?colls, ?blends, fun v hv => ?vessel, fun b _ => s.lin.cleared_ring _ b,
    fun c hc => ?cluster, fun f hf => s.lin.cleared_filler _ hf, fun m hm => ?meter, ?bankA, ?bankB, ?active, ?catTab, ?coll,
    ?blend, ?batch, ?farms, rfl, rfl, fun i hi => ⟨vget_replicate (h := hi) .., vget_replicate (h := hi) ..⟩, ?jrn⟩
  case port =>
    rw [State.port_setPort]
    by_cases hq : q = w.port
    · subst hq
      rw [if_pos rfl, if_pos rfl]
      rfl
    · rw [if_neg (Ne.symm hq), if_neg hq]
      cases q <;> rfl
  case vessel =>
    change (s.lin.cleared s.now).vessel v = _
    rw [Lineage.cleared_vessel _ _ hv]
    unfold Vessel.cleared
    cases (s.lin.vessel v).kind <;> rfl
  case cluster =>
    change vget (s.lin.cleared s.now).clusters c {} = _
    rw [Lineage.cleared_eq]
    exact vget_replicate (h := hc) ..
  case meter =>
    exact Lineage.cleared_meter s.lin s.now hm
  case jrn =>
    change (s.jrn.writeAll s.now w.tag s.clearRecords).publish = _
    refine congrArg (fun ps => (s.jrn.writeAll s.now w.tag ps).publish) ?_
    refine congrArg (fun hs => s.closings (List.range 8) ++ hs ++
      [Payload.engineClear s.evq.length (gapStanding s.evq) s.lin.openCount]) ?_
    have hshown : ∀ i, i ∈ List.range 9 → ({ s.hold with
        latches := Vector.replicate 9 0, shown := Vector.replicate 9 {} } : HoldUnit).view i = {} :=
      fun i hi => vget_replicate (h := List.mem_range.mp hi) ..
    unfold HoldUnit.clearings
    refine (List.map_congr_left fun i hi => ?_).trans (congrArg (List.map _)
      (List.filter_congr fun i hi => congrArg (fun v => decide (s.hold.view i ≠ v)) (hshown i hi).symm))
    exact congrArg (fun v => Payload.hold ⟨holdByte i, .clear, .done, s.hold.view i, v, none⟩)
      (hshown i (List.mem_of_mem_filter hi)).symm
  all_goals
    rw [State.setWaiting_lin, Lineage.cleared_eq]

end Sys2Proof.Machine

/-! What a step does: a run of moves, each of one part of the state. Every invariant is kept by every move,
so every step keeps it. -/

namespace Sys2Proof.Machine

open Sys2Proof

/-! ## The moves -/

/-- The end of an operation up to the taking of the next entry: evaluation, the records behind it and
publication (R137, R164). -/
def OpEnd.close (o : OpEnd) (tag : Nat) : State :=
  let s := o.after.foldl (fun s p => s.write tag p) (o.st.evaluate tag .evaluate o.released)
  (s.setJrn s.jrn.publish).setInFlight none

theorem OpEnd.finish_eq_settle (o : OpEnd) (tag : Nat) : o.finish tag = (o.close tag).settle := rfl

/-- What a step does, one move after another: a change of one part of the state that depends on nothing else,
or one of the operations that the rules describe. -/
inductive Move : State → State → Prop
  | pending (s : State) (q : List Instr) : Move s { s with pending := q }
  | reset (s : State) : Move s { State.reset with resetAsserted := true, pending := s.pending }
  | release (s : State) : Move s { s with resetAsserted := false }
  | settings (s : State) (m : Mgmt) (hm : m.clock = s.mgmt.clock) : Move s (s.setMgmt m)
  | advance (s : State) : Move s s.advance
  | decoder (s : State) (d : Decoder) : Move s (s.setDec d)
  | port (s : State) (p : Port) (x : PortState) (hr : x.reservations = (s.port p).reservations)
      (hb : (s.port p).bounded → x.bounded) : Move s (s.setPort p x)
  | lose (s : State) (p : Port) : Move s (s.setWaiting (loseReplies p s.waiting))
  | wait (s : State) (w : Waiting) (hw : (s.port w.port).room = true) :
      Move s ((s.reserve w.port).setWaiting (s.waiting ++ [w]))
  | answered (s : State) (w : Waiting) (rest : List Waiting) (r : Reply) (hw : s.waiting = w :: rest) :
      Move s ((s.setWaiting rest).answer w.port w.lost r)
  | join (s : State) (e : Entry) (hq : ordinaryCount s.evq < 63) (he : e.isGap = false) :
      Move s (s.setEvq (s.evq ++ [e]))
  | combine (s : State) (v : EntryVal) (a : TimeStamp) (q : List Entry) (hq : combine v a s.evq = some q) :
      Move s (s.setEvq q)
  | refuse (s : State) (a : TimeStamp) : Move s (s.setEvq (gapHandling a s.evq))
  | timer (s : State) (f : Nat) (x : Filler) (hs : x.state = (s.lin.filler f).state)
      (hr : x.ring = (s.lin.filler f).ring) : Move s (s.setLin (s.lin.setFiller f x))
  | take (s : State) : Move s s.settle
  | between (s : State) (tag : Nat) (b : Between) (hi : s.inFlight = none) : Move s (s.applyBetween tag b).1
  | released (s : State) (n : Seq) (hn : s.jrn.releaseCount n ≤ s.jrn.publishedCount) :
      Move s (s.setJrn (s.jrn.release n))
  | clear (s : State) (tag : Nat) (hi : s.inFlight = none) (hj : 80 ≤ s.jrn.free) :
      Move s (s.clearOperation tag)
  | operation (s : State) (e : TakenEntry) (he : s.inFlight = some e) : Move s ((e.operation s).close e.tag)

/-- A run of moves. -/
abbrev Moves : State → State → Prop := Relation.ReflTransGen Move

theorem Move.run {s t : State} (h : Move s t) : Moves s t := Relation.ReflTransGen.single h

theorem Moves.refl {s : State} : Moves s s := Relation.ReflTransGen.refl

/-- What every move keeps, a run of moves keeps. -/
theorem Moves.keeps {P : State → Prop} (hP : ∀ s t, Move s t → P s → P t) {s t : State} (h : Moves s t) :
    P s → P t := by
  induction h with
  | refl => exact id
  | tail _ hm ih => exact fun hs => hP _ _ hm (ih hs)

/-- A run of functions each of which makes moves makes moves. -/
theorem Moves.foldl {α : Type} {f : State → α → State} (hf : ∀ s a, Moves s (f s a)) (l : List α) (s : State) :
    Moves s (l.foldl f s) := by
  induction l generalizing s with
  | nil => exact .refl
  | cons a l ih => exact (hf s a).trans (ih _)

/-! ## Offers to the queue -/

section offers

variable (s : State)

theorem Entry.isGap_of_val {e : Entry} (h : ∀ n, e.val ≠ .gap n) : e.isGap = false := by
  unfold Entry.isGap
  split
  · rename_i n hn
    exact absurd hn (h n)
  · rfl

theorem State.append_moves {e : Entry} (he : ∀ n, e.val ≠ .gap n) : Moves s (s.append e).1 := by
  unfold State.append
  split
  · rename_i hq
    exact (Move.join s e hq (Entry.isGap_of_val he)).run
  · exact .refl

theorem State.offerItem_moves {v : EntryVal} (hv : ∀ n, v ≠ .gap n) (a : TimeStamp) :
    Moves s (s.offerItem v a).1 := by
  unfold State.offerItem
  split
  · rename_i q hq
    exact (Move.combine s v a q hq).run
  · dsimp only
    split
    · exact s.append_moves hv
    · split
      · exact (Move.decoder s _).run
      · exact (Move.refuse s a).run

theorem State.countOffer_moves : Moves s s.countOffer := (Move.decoder s _).run

theorem State.offerValve_moves (c : Nat) (v : Word16) (a : TimeStamp) : Moves s (s.offerValve c v a) := by
  unfold State.offerValve
  dsimp only
  split
  · exact .refl
  · refine Relation.ReflTransGen.tail ?_ (Move.take _)
    refine Relation.ReflTransGen.trans s.countOffer_moves ?_
    refine Relation.ReflTransGen.trans (State.offerItem_moves _ (v := .valve c (s.dec.overridden c v)) nofun a) ?_
    split
    · exact (Move.decoder _ _).run
    · exact .refl

theorem State.offerDecoded_moves {v : EntryVal} (hv : ∀ n, v ≠ .gap n) (a : TimeStamp) :
    Moves s (s.offerDecoded v a) := by
  unfold State.offerDecoded
  split
  · exact s.offerValve_moves _ _ _
  · exact (s.countOffer_moves.trans (State.offerItem_moves _ hv a)).tail (Move.take _)

/-- No telegram carries a GAP. -/
theorem itemValue_ne_gap (c : ItemClass) (u : VolUnit) (obj : Nat) (l : List (List Byte)) (n : Nat) :
    itemValue c u obj l ≠ .gap n := by
  cases c <;> exact nofun

theorem State.decodeItem_moves (e : MatchEntry) (payload : List Byte) (a : TimeStamp) (i : Nat) :
    Moves s (s.decodeItem e payload a i) := by
  unfold State.decodeItem
  split
  · exact (Move.decoder s _).run
  · exact s.offerDecoded_moves (itemValue_ne_gap _ _ _ _) a

theorem State.decodeFrame_moves (f : Frame) : Moves s (s.decodeFrame f) := by
  unfold State.decodeFrame
  dsimp only
  split
  · exact .refl
  · split
    · split
      · exact (Move.decoder s _).run
      · exact (Move.decoder s _).run.trans (Moves.foldl (fun s i => s.decodeItem_moves _ _ _ i) _ _)
    · exact (Move.decoder s _).run

end offers

/-! ## Frames received, transmitted and answered -/

section ports

variable (s : State)

/-- A change of a port's counters alone. -/
theorem Move.counters (p : Port) (x : PortState) (hr : x.reservations = (s.port p).reservations)
    (hf : x.fwd = (s.port p).fwd) (hi : x.inj = (s.port p).inj) (hd : x.deferral = (s.port p).deferral)
    (hl : x.linkUp = (s.port p).linkUp) : Move s (s.setPort p x) :=
  .port s p x hr fun h => by
    unfold PortState.bounded at h ⊢
    rwa [hr, hf, hi, hd, hl]

theorem PortState.bounded_answered {x : PortState} (hu : x.linkUp = true) (hroom : x.inj.length + x.reservations < 8)
    (r : Reply) (h : x.bounded) : (x.answered r).bounded := by
  obtain ⟨hf, _, hd, _⟩ := h
  refine ⟨hf, ?_, hd, fun hn => absurd hu (Bool.eq_false_iff.mp hn)⟩
  simp only [PortState.answered, List.length_append, List.length_singleton]
  change _ ≤ 8
  omega

theorem Move.replied {p : Port} (hu : (s.port p).linkUp = true)
    (hroom : (s.port p).inj.length + (s.port p).reservations < 8) (r : Reply) :
    Move s (s.setPort p ((s.port p).answered r)) :=
  .port s p _ rfl (PortState.bounded_answered hu hroom r)

/-- A port whose link comes up or goes down is empty (R146). -/
theorem PortState.bounded_emptied {x : PortState} {up : Bool} {loss : Nat} (h : x.bounded) :
    { x with linkUp := up, fwd := [], inj := [], deferral := 0, linkLoss := loss }.bounded := by
  obtain ⟨_, hi, _, _⟩ := h
  refine ⟨Nat.zero_le _, ?_, Nat.zero_le _, fun _ => ⟨rfl, rfl⟩⟩
  simp only [List.length_nil]
  omega

theorem PortState.bounded_transmit (x : PortState) (station : Nat) (h : x.bounded) :
    (x.transmit station).bounded := by
  obtain ⟨hf, hi, hd, he⟩ := h
  unfold PortState.transmit
  split
  · exact ⟨hf, hi, hd, he⟩
  · rename_i f rest hfwd hinj
    rw [hfwd] at hf he
    refine ⟨Nat.le_of_succ_le hf, hi, ?_, fun hn => absurd (he hn).1 (List.cons_ne_nil _ _)⟩
    simpa only [PortState.sendForwarded, hinj, List.isEmpty_nil, if_true] using hd
  · rename_i i rest hfwd hinj
    rw [hinj] at hi he
    refine ⟨hf, ?_, Nat.zero_le _, fun hn => absurd (he hn).2 (List.cons_ne_nil _ _)⟩
    simp only [PortState.sendInjected, List.length_cons] at hi ⊢
    omega
  · rename_i f rest i injRest hfwd hinj
    rw [hfwd] at hf he
    rw [hinj] at hi he
    split
    · rename_i hlt
      refine ⟨Nat.le_of_succ_le hf, ?_, ?_, fun hn => absurd (he hn).1 (List.cons_ne_nil _ _)⟩
      · simpa only [PortState.sendForwarded, hinj] using hi
      · simp only [PortState.sendForwarded, hinj, List.isEmpty_cons, Bool.false_eq_true, if_false]
        exact hlt
    · refine ⟨by simpa only [PortState.sendInjected, hfwd] using hf, ?_, Nat.zero_le _,
        fun hn => absurd (he hn).1 (List.cons_ne_nil _ _)⟩
      simp only [PortState.sendInjected, List.length_cons] at hi ⊢
      omega

theorem PortState.transmit_reservations (x : PortState) (station : Nat) :
    (x.transmit station).reservations = x.reservations := by
  unfold PortState.transmit
  split
  · rfl
  · rfl
  · rfl
  · split <;> rfl

theorem State.forward_moves (q : Port) (f : Frame) : Moves s (s.forward q f) := by
  unfold State.forward
  dsimp only
  split
  · exact (Move.counters s q { s.port q with linkLoss := tick32 (s.port q).linkLoss } rfl rfl rfl rfl rfl).run.trans
      (State.decodeFrame_moves _ f)
  · rename_i hup
    split
    · exact (Move.counters s q { s.port q with fwdDrops := tick32 (s.port q).fwdDrops } rfl rfl rfl rfl rfl).run
    · rename_i hroom
      refine (Move.port s q { s.port q with fwd := (s.port q).fwd ++ [f] } rfl fun h => ?_).run.trans
        (State.decodeFrame_moves _ f)
      obtain ⟨_, hi, hd, _⟩ := h
      refine ⟨?_, hi, hd, fun hn => absurd hn (by simpa using hup)⟩
      rw [List.length_append]
      exact Nat.not_le.mp hroom

end ports

/-! ## Commands -/

section commands

variable {s : State} {h : CmdHdr}

/-- The effect of a command at once leaves the reservation, and makes moves. -/
theorem State.applyAtOnce_moves (s : State) (p : Port) (a : AtOnce) :
    ∃ u st args, (s.reserve p).applyAtOnce a = (u.reserve p, st, args) ∧ u.port p = s.port p ∧ Moves s u := by
  cases a with
  | status => exact ⟨s, _, _, rfl, rfl, .refl⟩
  | loadMatch k e =>
    simp only [State.applyAtOnce, State.loadMatch_reserve]
    split
    · exact ⟨_, _, _, rfl, State.port_setDec _ _ _, (Move.decoder s _).run⟩
    · exact ⟨s, _, _, rfl, rfl, .refl⟩
  | loadFilter f =>
    simp only [State.applyAtOnce, State.loadFilter_reserve]
    split
    · exact ⟨_, _, _, rfl, State.port_setDec _ _ _, (Move.decoder s _).run⟩
    · exact ⟨s, _, _, rfl, rfl, .refl⟩
  | loadOverride k o =>
    simp only [State.applyAtOnce, State.loadOverride_reserve]
    split
    · exact ⟨_, _, _, rfl, State.port_setDec _ _ _, (Move.decoder s _).run⟩
    · exact ⟨s, _, _, rfl, rfl, .refl⟩
  | setManagers a b =>
    simp only [State.applyAtOnce, State.setManagers_reserve]
    split
    · exact ⟨_, _, _, rfl, State.port_setMgmt _ _ _, (Move.settings s { s.mgmt with manager0 := a, manager1 := b } rfl).run⟩
    · exact ⟨s, _, _, rfl, rfl, .refl⟩
  | journalFetch n => exact ⟨s, _, _, rfl, rfl, .refl⟩
  | journalRelease n =>
    refine ⟨(s.journalRelease n).1, (s.journalRelease n).2, ((s.journalRelease n).1.reserve p).jrn.header, ?_, ?_, ?_⟩
    · simp only [State.applyAtOnce]
      rw [State.journalRelease_reserve]
    · unfold State.journalRelease
      split
      · exact State.port_setJrn _ _ _
      · rfl
    · unfold State.journalRelease
      split
      · rename_i hn
        exact (Move.released s n hn).run
      · exact .refl

/-- A quiet engine's direct command between operations, reserved and answered. -/
theorem State.between_reserve (s : State) (hu : (s.port h.port).linkUp = true) (b : Between) (r : Reply) :
    ((s.reserve h.port).applyBetween h.tag b).1.answer h.port false r =
      (s.applyBetween h.tag b).1.setPort h.port ((s.port h.port).answered r) := by
  have hself := State.applyBetween_eq (s := s) rfl rfl rfl rfl h.tag b
  have hres := State.applyBetween_eq (s := s) (t := s.reserve h.port) (State.setPort_lin _ _ _)
    (State.setPort_hold _ _ _) (State.setPort_mgmt _ _ _) (State.setPort_jrn _ _ _) h.tag b
  rw [hres]
  refine State.answer_after_reserve hu ?_ _
  rw [hself]
  generalize h.port = q
  cases q <;> rfl

theorem State.applyBetween_port (s : State) (tag : Nat) (b : Between) (p : Port) :
    (s.applyBetween tag b).1.port p = s.port p := by
  rw [State.applyBetween_eq (s := s) rfl rfl rfl rfl tag b]
  cases p <;> rfl

/-- A command that waits joins those that wait, its reply's place reserved. -/
theorem State.enqueueWaiting_moves (hroom : (s.port h.port).inj.length + (s.port h.port).reservations < 8)
    (w : WaitCmd) : Moves s ((s.reserve h.port).enqueueWaiting h w) := by
  have hw : (s.reserve h.port).waiting = s.waiting := State.setPort_waiting _ _ _
  rw [State.enqueueWaiting, hw]
  exact (Move.wait s ⟨h.port, h.source, h.tag, false, w⟩ ((PortState.room_iff _).mpr hroom)).run

/-- A command that passes the checks makes moves; none offers a GAP. -/
theorem State.handOn_moves (hu : (s.port h.port).linkUp = true)
    (hroom : (s.port h.port).inj.length + (s.port h.port).reservations < 8) {c : Command}
    (hc : ∀ n, c ≠ .queued (.gap n)) : Moves s ((s.reserve h.port).handOn h c) := by
  cases c with
  | atOnce a =>
    obtain ⟨u, st, args, ha, hport, hm⟩ := s.applyAtOnce_moves h.port a
    simp only [State.handOn, ha]
    rw [State.answer_after_reserve (by rwa [hport]) (State.reserve_eq u h.port)]
    exact (hm.tail (Move.replied u (by rwa [hport]) (by rwa [hport]) _)).tail (Move.take _)
  | between b =>
    simp only [State.handOn]
    split
    · exact State.enqueueWaiting_moves hroom _
    · rename_i hbusy
      rw [State.busy_reserve, State.busy_iff, not_or, not_not] at hbusy
      rw [State.between_reserve s hu]
      have hp := s.applyBetween_port h.tag b h.port
      rw [← hp]
      exact (Move.between s h.tag b hbusy.1).run.tail (Move.replied _ (by rwa [hp]) (by rwa [hp]) _)
  | queued v =>
    rcases Nat.lt_or_ge (ordinaryCount s.evq) 63 with hq | hq
    · rw [State.handOn_queued hu hq]
      refine Relation.ReflTransGen.tail ?_ (Move.take _)
      have he : (Entry.mk v s.mgmt.clock h.tag true).isGap = false :=
        Entry.isGap_of_val fun n hn => hc n (congrArg Command.queued hn)
      exact (Move.join s ⟨v, s.mgmt.clock, h.tag, true⟩ hq he).run.tail
        (Move.replied (s.setEvq _) (by rwa [State.port_setEvq]) (by rwa [State.port_setEvq]) _)
    · rw [State.handOn_queueFull hu hq]
      exact (Move.replied s hu hroom _).run.tail (Move.take _)
  | clear => exact State.enqueueWaiting_moves hroom _

/-- A command frame accepted or refused makes moves. -/
theorem State.accept_moves (hu : (s.port h.port).linkUp = true) (code : Nat) {oc : Option Command}
    (hc : ∀ c, oc = some c → ∀ n, c ≠ .queued (.gap n)) : Moves s (s.accept h code oc) := by
  by_cases hv : h.version = 1
  · rcases Nat.lt_or_ge ((s.port h.port).inj.length + (s.port h.port).reservations) 8 with hroom | hroom
    · rw [State.accept_reserved hv hroom]
      cases hp : s.mgmt.permits h.source with
      | false =>
        rw [State.checkReserved_not_permitted hu hp]
        exact (Move.settings s { s.mgmt with refusals := tick32 s.mgmt.refusals } rfl).run.tail
          (Move.replied (s.setMgmt _) (by rwa [State.port_setMgmt]) (by rwa [State.port_setMgmt]) _)
      | true =>
        cases oc with
        | none =>
          rw [State.checkReserved_bad_form hu hp]
          exact (Move.replied s hu hroom _).run
        | some c =>
          have hp' : (s.reserve h.port).mgmt.permits h.source = true := by rw [State.mgmt_reserve, hp]
          simp only [State.checkReserved, hp', Bool.not_true, Bool.false_eq_true, if_false]
          exact State.handOn_moves hu hroom (hc c rfl)
    · rw [State.accept_no_room hv hroom]
      exact (Move.settings s { s.mgmt with replyDrops := tick32 s.mgmt.replyDrops } rfl).run
  · rw [State.accept_wrong_version hv]
    exact (Move.settings s { s.mgmt with versionDrops := tick32 s.mgmt.versionDrops } rfl).run

theorem State.linkUp_of_receives {p : Port} (hr : s.receives p = true) : (s.port p).linkUp = true := by
  simp only [State.receives, Bool.and_eq_true] at hr
  exact hr.2

/-- No row's command is a GAP. -/
theorem commandOf_ne_gap {i : Instr} {c : Command} (hc : commandOf i = some (h, c)) (n : Nat) :
    c ≠ .queued (.gap n) := by
  cases i <;> simp only [commandOf, Option.some.injEq, Prod.mk.injEq, reduceCtorEq] at hc <;>
    (obtain ⟨rfl, rfl⟩ := hc; exact nofun)

theorem State.command_moves {i : Instr} {c : Command} (hc : commandOf i = some (h, c)) : Moves s (s.command h c) := by
  unfold State.command
  split
  · rename_i hr
    refine State.accept_moves (State.linkUp_of_receives hr) _ fun c' hc' => ?_
    obtain ⟨_, hcc⟩ := Option.ite_none_right_eq_some.mp hc'
    exact Option.some.inj hcc ▸ commandOf_ne_gap hc
  · exact .refl

/-- No frame spells a GAP. -/
theorem parseCommand_ne_gap {code : Nat} {l : List Byte} {c : Command} (hc : parseCommand code l = some c) (n : Nat) :
    c ≠ .queued (.gap n) := by
  rw [parse_frameRow ⟨.a, 0, 0, 0, 0, 0⟩] at hc
  obtain ⟨⟨h, d⟩, hd, rfl⟩ := Option.map_eq_some_iff.mp hc
  obtain ⟨i, _, hi⟩ := Option.bind_eq_some_iff.mp hd
  exact commandOf_ne_gap hi n

theorem State.receive_moves (s : State) {p : Port} (hu : (s.port p).linkUp = true) (fcs : Bool) (f : Frame) :
    Moves s (s.receive p fcs f) := by
  unfold State.receive
  split
  · exact (Move.counters s p { s.port p with rxErrors := tick32 (s.port p).rxErrors } rfl rfl rfl rfl rfl).run
  · split
    · refine State.accept_moves (h := parseHeader p f) hu _ fun c hc => ?_
      obtain ⟨l, _, hl⟩ := Option.bind_eq_some_iff.mp hc
      exact parseCommand_ne_gap hl
    · exact s.forward_moves _ f

end commands

/-! ## Waiting commands -/

section waiting

theorem State.applyBetween_setWaiting (s : State) (ws : List Waiting) (tag : Nat) (b : Between) :
    (s.setWaiting ws).applyBetween tag b =
      ((s.applyBetween tag b).1.setWaiting ws, (s.applyBetween tag b).2) := by
  rw [State.applyBetween_eq (s := s) (t := s.setWaiting ws) rfl rfl rfl rfl tag b,
    State.applyBetween_eq (s := s) (t := s) rfl rfl rfl rfl tag b]
  rfl

theorem State.answer_setWaiting (s : State) (ws : List Waiting) (p : Port) (lost : Bool) (r : Reply) :
    (s.setWaiting ws).answer p lost r = (s.answer p lost r).setWaiting ws := by
  rw [State.answer_eq, State.answer_eq, State.port_setWaiting, State.setWaiting_setPort]

/-- A waiting command is carried out without regard to those that wait behind it. -/
theorem State.carryOut_setWaiting (s : State) (w : Waiting) (ws : List Waiting) :
    (s.setWaiting ws).carryOut w = (s.carryOut w).setWaiting ws := by
  unfold State.carryOut
  split
  · rfl
  · rw [State.applyBetween_setWaiting, State.answer_setWaiting]

theorem State.carryOut_inFlight (s : State) (w : Waiting) : (s.carryOut w).inFlight = s.inFlight := by
  unfold State.carryOut
  split
  · rfl
  · rename_i b _
    dsimp only
    rw [State.applyBetween_eq (s := s) rfl rfl rfl rfl w.tag b, State.answer_eq, State.setPort_inFlight]

/-- The direct commands at the head of those that wait are carried out one after another. -/
theorem State.carryOut_moves (due rest : List Waiting) (hdue : ∀ w ∈ due, w.isBetween = true) (s : State)
    (hi : s.inFlight = none) :
    Moves (s.setWaiting (due ++ rest)) (due.foldl State.carryOut (s.setWaiting rest)) := by
  induction due generalizing s with
  | nil => exact .refl
  | cons w due ih =>
    obtain ⟨hw, hdue⟩ := List.forall_mem_cons.mp hdue
    obtain ⟨b, hb⟩ : ∃ b, w.cmd = .between b := by
      cases hc : w.cmd with
      | between b => exact ⟨b, rfl⟩
      | clear => rw [Waiting.isBetween, hc] at hw; cases hw
    rw [List.foldl_cons, State.carryOut_setWaiting]
    refine Relation.ReflTransGen.trans ?_ (ih hdue (s.carryOut w) ((s.carryOut_inFlight w).trans hi))
    have hbetween := Move.between (s.setWaiting (w :: due ++ rest)) w.tag b hi
    refine hbetween.run.tail ?_
    rw [← State.carryOut_setWaiting, State.carryOut, hb]
    dsimp only
    simp only [State.applyBetween_setWaiting]
    exact Move.answered (((s.applyBetween w.tag b).1).setWaiting (w :: due ++ rest)) w (due ++ rest) _ rfl

theorem State.deferred_moves (s : State) : Moves s s.deferred := by
  unfold State.deferred
  split
  · exact .refl
  · rename_i hn
    rw [Bool.or_eq_true, not_or, Option.isSome_iff_ne_none, not_not] at hn
    refine Relation.ReflTransGen.tail ?_ (Move.take _)
    have hrun := State.carryOut_moves (s.waiting.takeWhile Waiting.isBetween) (s.waiting.dropWhile Waiting.isBetween)
      (fun w hw => List.mem_takeWhile_imp hw) s hn.2
    rwa [List.takeWhile_append_dropWhile] at hrun

theorem State.applyClear_moves (s : State) : Moves s s.applyClear := by
  unfold State.applyClear
  split
  · exact .refl
  · rename_i w rest hw
    split
    · exact .refl
    · rename_i hn
      simp only [Bool.or_eq_true, Option.isSome_iff_ne_none, not_or, not_not, decide_eq_true_eq, Nat.not_lt] at hn
      obtain ⟨⟨⟨_, hi⟩, _⟩, hj⟩ := hn
      refine Relation.ReflTransGen.tail ?_ (Move.take _)
      exact (Move.clear s w.tag hi hj).run.tail
        (Move.answered (s.clearOperation w.tag) w rest _ (by rw [State.clearOperation_eq]; exact hw))

end waiting

/-! ## The entry rows and the step -/

/-- The row of a kind carries out the operation of the entry in flight, or does nothing. -/
theorem State.atEntry_moves (s : State) {op : TakenEntry → State → Option OpEnd}
    (hop : ∀ e u o, op e u = some o → o = e.operation u) : Moves s (s.atEntry op) := by
  unfold State.atEntry
  split
  · exact .refl
  · rename_i e he
    split
    · exact .refl
    · rename_i o ho
      have hcur : s.settle.inFlight = some e := by
        unfold State.current at he
        split at he
        · cases he
        · exact he
      rw [hop e _ o ho, OpEnd.finish_eq_settle]
      exact ((Move.take s).run.tail (Move.operation _ e hcur)).tail (Move.take _)

theorem State.offerIdle_moves (s : State) (f serial : Nat) (x : TimeStamp) : Moves s (s.offerIdle f serial x).1 :=
  s.append_moves (e := ⟨.idleClose f serial x, s.now, 0, false⟩) nofun

theorem State.offerIdleClose_moves (s : State) (f serial : Nat) : Moves s (s.offerIdleClose f serial) := by
  unfold State.offerIdleClose
  have hoffer := s.offerIdle_moves f serial s.now
  generalize s.offerIdle f serial s.now = r at hoffer
  dsimp only
  split
  · exact hoffer.tail (Move.take _)
  · exact hoffer.tail (Move.timer r.1 f { r.1.lin.filler f with pendingIdle := some (serial, s.now) } rfl rfl)

theorem State.expire_moves (s : State) (f : Nat) : Moves s (s.expire f) := by
  unfold State.expire
  dsimp only
  have hstop := (Move.timer s f { s.lin.filler f with timer := none } rfl rfl).run
  split
  · exact hstop
  · exact hstop.trans (State.offerIdleClose_moves _ f _)

/-- A command carried out makes moves. -/
theorem exec_moves {i : Instr} {s t : State} (h : exec i s = .next t) : Moves s t := by
  cases hc : commandOf i with
  | some x =>
    obtain ⟨hd, c⟩ := x
    rw [exec_command s hc] at h
    obtain rfl := Host.Outcome.next.inj h
    exact State.command_moves hc
  | none =>
    cases i <;> simp only [commandOf, reduceCtorEq] at hc <;> obtain rfl := Host.Outcome.next.inj h
    case powerOnReset => exact (Move.reset s).run
    case resetRelease strap =>
      split
      · exact (Move.release s).run.tail (Move.settings _ { s.mgmt with strap := strap } rfl)
      · exact .refl
    case linkUp p =>
      split
      · exact .refl
      · exact (Move.port s p (s.port p).up rfl PortState.bounded_emptied).run
    case linkDown p =>
      split
      · exact (Move.port s p (s.port p).down rfl PortState.bounded_emptied).run.tail
          (State.setPort_waiting s p (s.port p).down ▸ Move.lose _ p)
      · exact .refl
    case frameReceive p fcs f =>
      split
      · rename_i hr
        exact s.receive_moves (State.linkUp_of_receives hr) fcs f
      · exact .refl
    case frameTransmit p =>
      split
      · exact (Move.port s p _ (PortState.transmit_reservations _ _) (PortState.bounded_transmit _ _)).run
      · exact .refl
    case idleTimerExpiry f =>
      split
      · exact s.expire_moves f
      · exact .refl
    case clockDayRollover =>
      split
      · exact (Move.advance s).run
      · exact .refl
    case plantClockAdvance =>
      split
      · exact .refl
      · exact (Move.advance s).run
    case applyClearEngine => exact s.applyClear_moves
    case deferredDirectCommands => exact s.deferred_moves
    all_goals
      refine s.atEntry_moves fun e u o ho => ?_
      split at ho
      · rename_i hv
        obtain rfl := Option.some.inj ho
        simp only [TakenEntry.operation, hv]
      · cases ho

/-- A step makes moves: the command at the front of the queue leaves it, and is carried out. -/
theorem step_moves {s t : State} (h : step s = .next t) : Moves s t := by
  unfold step at h
  split at h
  · obtain rfl := Host.Outcome.next.inj h
    exact .refl
  · exact (Move.pending s _).run.trans (exec_moves h)

/-- What every move keeps, every step keeps. -/
theorem step_keeps {P : State → Prop} (hP : ∀ s t, Move s t → P s → P t) {s t : State} (h : step s = .next t)
    (hs : P s) : P t := (step_moves h).keeps hP hs

end Sys2Proof.Machine

/-! SWITCH_BANK and resolution (R83, R94), O33, O34: the closes of all segments in one equation, and the search
through the active bank by `List.find?`. -/

namespace Sys2Proof.Machine

open Sys2Proof

/-! ## SWITCH_BANK -/

section switch

variable (s : State) (tag : Nat)

/-- The records of a SWITCH_BANK: one for each segment that carried volume (R94). -/
def State.switchRecords (s : State) (ms : List Nat) : List Payload :=
  (ms.filter (fun m => decide ((s.lin.meter m).seg.vol ≠ 0))).map (fun m => .segment
    { meter := m, route := (s.lin.meter m).route, start := (s.lin.meter m).seg.start, stop := s.now,
      vol := (s.lin.meter m).seg.vol, flags := (s.lin.meter m).seg.flags, reason := .switch })

/-- Segments closed one after another write their records; nothing else changes. -/
theorem State.closeSegments_eq (ms : List Nat) :
    ms.foldl (fun acc m => acc.closeSegment m .switch tag) s =
      { s with jrn := s.jrn.writeAll s.now tag (s.switchRecords ms) } := by
  induction ms generalizing s with
  | nil => rfl
  | cons m ms ih =>
    rw [List.foldl_cons, ih]
    by_cases hv : (s.lin.meter m).seg.vol = 0
    · simp only [State.closeSegment, hv, beq_self_eq_true, if_true, State.switchRecords, List.filter_cons, ne_eq,
        not_true, decide_false, Bool.false_eq_true, if_false]
    · simp only [State.closeSegment, hv, beq_iff_eq, if_false, State.switchRecords, List.filter_cons, ne_eq,
        not_false_iff, decide_true, if_true]
      rfl

/-- A SWITCH_BANK's operation, in one equation (R94). -/
theorem State.opSwitchBank_eq :
    s.opSwitchBank tag =
      { s with
        lin := ({ s.lin with active := s.lin.active.other } : Lineage).resolveAll.openAll s.now
        jrn := s.jrn.writeAll s.now tag
          (s.switchRecords (List.range 48) ++ [.engineSwitch s.lin.active.other]) } := by
  unfold State.opSwitchBank
  rw [State.closeSegments_eq, Journal.writeAll_append]
  simp only [State.write, State.setJrn, State.setLin, State.now, Journal.writeAll_cons, Journal.writeAll_nil,
    Lineage.resolveOpen_eq]

end switch

/-- Settles O33: the operation's equation, and every meter resolved with a new segment. -/
theorem switchBankResolvesEveryMeter : Obligations.SwitchBankResolvesEveryMeter := by
  intro s e ht hv
  have hrow : e.val.row = .switchBankEntry := by rw [hv]; rfl
  have hop : e.operation s = { st := s.opSwitchBank e.tag } := by simp only [TakenEntry.operation, hv]
  rw [State.opSwitchBank_eq] at hop
  obtain ⟨t, hexec, hres⟩ := exec_row_writes ht _ (congrArg (fun o => o.st.jrn) hop)
  rw [hrow] at hexec
  rw [hop] at hres
  have hl := Lineage.resolveOpen_eq { s.lin with active := s.lin.active.other } s.now
  have hactive := congrArg Lineage.active hl
  refine ⟨t, _, hexec, ?_, hactive, ?_, fun m hm => ?_⟩
  · rw [hactive]
    exact hres
  · rw [hl]
  · rw [Lineage.resolveOpen_meter _ _ hm, hl]
    rfl

/-! ## Resolution -/

section resolution

variable (l : Lineage)

theorem Lineage.condHolds_iff (c : RouteCond) : l.condHolds c = true ↔
    (vget l.clusters c.cluster {}).seen = true ∧ (vget l.clusters c.cluster {}).value &&& c.mask = c.mtch := by
  simp only [Lineage.condHolds, Bool.and_eq_true, beq_iff_eq]

theorem Lineage.entryHolds_iff (e : RouteEntry) : l.entryHolds e = true ↔
    e.valid = true ∧ ∀ c ∈ e.inUse, (vget l.clusters c.cluster {}).seen = true ∧
      (vget l.clusters c.cluster {}).value &&& c.mask = c.mtch := by
  simp only [Lineage.entryHolds, Bool.and_eq_true, List.all_eq_true, Lineage.condHolds_iff]

/-- The first number below a bound with a property. -/
theorem find?_range_eq_some {n i : Nat} {p : Nat → Bool} :
    (List.range n).find? p = some i ↔ i < n ∧ p i = true ∧ ∀ j, j < i → p j = false := by
  rw [List.find?_range_eq_some]
  simp only [Bool.not_eq_true', List.mem_range]
  exact ⟨fun ⟨h1, h2, h3⟩ => ⟨h2, h1, h3⟩, fun ⟨h1, h2, h3⟩ => ⟨h2, h1, h3⟩⟩

end resolution

/-- Settles O34: the search finds the first index whose entry fits, or none. -/
theorem resolutionIsTheLowestEntryThatHolds : Obligations.ResolutionIsTheLowestEntryThatHolds := by
  intro l m fits
  have hfits : ∀ i, ((l.activeEntry i).meter == m && l.entryHolds (l.activeEntry i)) = true ↔ fits i := fun i => by
    rw [Bool.and_eq_true, beq_iff_eq, Lineage.entryHolds_iff, ← and_assoc, and_comm (a := (l.activeEntry i).meter = m),
      and_assoc]
    rfl
  have hnot : ∀ i, ((l.activeEntry i).meter == m && l.entryHolds (l.activeEntry i)) = false ↔ ¬ fits i := fun i => by
    rw [← Bool.not_eq_true, hfits]
  refine ⟨?_, fun r => ?_⟩
  · simp only [Lineage.resolve, Option.map_eq_none_iff, List.find?_eq_none, List.mem_range, hfits]
  · unfold Lineage.resolve
    rw [Option.map_eq_some_iff]
    simp only [find?_range_eq_some, hfits, hnot]
    constructor
    · rintro ⟨i, ⟨hi, hf, hlow⟩, rfl⟩
      exact ⟨hi, hf, hlow, rfl, rfl, rfl⟩
    · rintro ⟨hi, hf, hlow, hb, hs, hd⟩
      refine ⟨r.entry, ⟨hi, hf, hlow⟩, ?_⟩
      cases r
      simp only at hb hs hd
      subst hb hs hd
      rfl

end Sys2Proof.Machine

/-! What every step keeps of the clock, the queue, the ports, the meters and the journal's order: O11, O36, O9,
O31, O35, O38. Each is kept by every move. -/

namespace Sys2Proof.Machine

open Sys2Proof

/-! ## The end of an operation -/

/-- The end of an operation writes at most nine HOLD records, then those its rule places behind them, and
publishes; it gives up the entry in flight and shows the holds. -/
theorem OpEnd.close_eq (o : OpEnd) (tag : Nat) : ∃ sh hs, hs.length ≤ 9 ∧ o.close tag =
    { o.st with
      hold := { o.st.hold with shown := sh }
      jrn := (o.st.jrn.writeAll o.st.now tag (hs ++ o.after)).publish
      inFlight := none } := by
  refine ⟨(List.range 9).foldl (fun v i => vset v i (o.st.holdView i)) o.st.hold.shown,
    ((List.range 9).filter (o.st.holdMoved o.released)).map (o.st.holdPayload .evaluate o.released), ?_, ?_⟩
  · rw [List.length_map]
    exact (List.length_filter_le _ _).trans (List.length_range (n := 9)).le
  · unfold OpEnd.close
    dsimp only
    rw [State.evaluate_spec, State.writes_eq, Journal.writeAll_append]
    generalize (List.range 9).foldl (fun v i => vset v i (o.st.holdView i)) o.st.hold.shown = sh
    generalize ((List.range 9).filter (o.st.holdMoved o.released)).map (o.st.holdPayload .evaluate o.released) = hs
    rfl

section close

variable (o : OpEnd) (tag : Nat)

theorem OpEnd.close_lin : (o.close tag).lin = o.st.lin := by
  obtain ⟨_, _, _, h⟩ := o.close_eq tag
  rw [h]

theorem OpEnd.close_mgmt : (o.close tag).mgmt = o.st.mgmt := by
  obtain ⟨_, _, _, h⟩ := o.close_eq tag
  rw [h]

theorem OpEnd.close_evq : (o.close tag).evq = o.st.evq := by
  obtain ⟨_, _, _, h⟩ := o.close_eq tag
  rw [h]

theorem OpEnd.close_waiting : (o.close tag).waiting = o.st.waiting := by
  obtain ⟨_, _, _, h⟩ := o.close_eq tag
  rw [h]

theorem OpEnd.close_inFlight : (o.close tag).inFlight = none := by
  obtain ⟨_, _, _, h⟩ := o.close_eq tag
  rw [h]

theorem OpEnd.close_port (p : Port) : (o.close tag).port p = o.st.port p := by
  obtain ⟨_, _, _, h⟩ := o.close_eq tag
  rw [h]
  cases p <;> rfl

end close

/-! ## What a direct command between operations does -/

/-- The effects of the direct commands between operations: none, or one that the check of its rule let pass. -/
inductive Effect (s : State) (tag : Nat) : State → Prop
  | nothing : Effect s tag s
  | vessel (v : Nat) (cfg : VesselCfg) (h : s.lin.checkLoadVessel v cfg = .done) :
      Effect s tag (s.setLin (s.lin.applyLoadVessel v cfg))
  | meter (m w num den j : Nat) (hden : 1 ≤ den) :
      Effect s tag (s.setLin (s.lin.setMeter m { s.lin.meter m with
        configured := true, width := w, num := num, den := den, jump := j, refValid := false, residue := 0 }))
  | route (r : RouteArgs) (h : s.lin.checkLoadRoute r = .done) :
      Effect s tag (s.setLin (s.lin.setEntry ((bankOfByte r.bank).getD .a) r.index (routeEntryOf r)))
  | tables (ct : Vector (Vector (Fin 8) 8) 8) (a b c : Nat) :
      Effect s tag (s.setLin { s.lin with catTab := ct, collNext := a, blendNext := b, batchNext := c })
  | hold (h : HoldUnit) : Effect s tag (s.setHold h)
  | plant (n : Nat) : Effect s tag (s.setMgmt { s.mgmt with plant := n })
  | clock (t : TimeStamp) (ht : t.day ≤ 99999 ∧ t.sec ≤ 86399 ∧ t.hund ≤ 99) (hj : s.jrn.free ≠ 0) :
      Effect s tag (s.applyClock tag t)

theorem State.applyBetween_effect (s : State) (tag : Nat) (b : Between) :
    Effect s tag (s.applyBetween tag b).1 := by
  cases b with
  | loadVessel v cfg =>
    simp only [State.applyBetween, State.loadVessel, beq_iff_eq]
    split
    · rename_i h
      exact .vessel v cfg h
    · exact .nothing
  | loadMeter m w n d j =>
    by_cases hok : m ≤ 47 ∧ (w = 16 ∨ w = 32) ∧ 1 ≤ n ∧ n ≤ 65535 ∧ 1 ≤ d ∧ d ≤ 65535 ∧ j ≤ 1000000000
    · simp only [State.applyBetween, State.loadMeter_ok hok]
      exact .meter m w n d j hok.2.2.2.2.1
    · simp only [State.applyBetween, State.loadMeter_bad hok]
      exact .nothing
  | loadRoute r =>
    simp only [State.applyBetween, State.loadRoute, beq_iff_eq]
    split
    · rename_i h
      exact .route r h
    · exact .nothing
  | loadCategory cells =>
    simp only [State.applyBetween, State.loadCategory]
    split
    · exact .tables _ _ _ _
    · exact .nothing
  | loadPolicy p =>
    cases p with
    | cond row rep tg =>
      simp only [State.applyBetween, State.loadPolicy]
      split
      · split
        · exact .hold _
        · exact .nothing
      · exact .nothing
    | content c on =>
      simp only [State.applyBetween, State.loadPolicy]
      split
      · exact .hold _
      · exact .hold _
      · exact .hold _
      · exact .nothing
  | loadOutput a b c d =>
    simp only [State.applyBetween, State.loadOutput]
    split
    · split
      · exact .hold _
      · exact .nothing
    · exact .nothing
  | setPlant n =>
    simp only [State.applyBetween, State.setPlant]
    split
    · exact .plant n
    · exact .nothing
  | setSerials a b c =>
    simp only [State.applyBetween, State.setSerials]
    split
    · exact .tables s.lin.catTab _ _ _
    · exact .nothing
  | setClock d x c =>
    simp only [State.applyBetween, State.setClock, Bool.or_eq_true, decide_eq_true_eq, beq_iff_eq]
    split
    · exact .nothing
    · rename_i ht
      split
      · exact .nothing
      · rename_i hj
        simp only [not_or, Nat.not_lt] at ht
        obtain ⟨⟨hd, hx⟩, hc⟩ := ht
        exact .clock ⟨d, x, c⟩ ⟨hd, hx, hc⟩ hj
  | readVessel v => exact .nothing
  | readKey k => exact .nothing
  | readBatch f p => exact .nothing
  | readBay v => exact .nothing
  | readMeter m => exact .nothing

/-- Steps 2 to 4 of SET_CLOCK, in one equation (R179). -/
theorem State.applyClock_eq (s : State) (tag : Nat) (t : TimeStamp) :
    s.applyClock tag t = { s with
      mgmt := { s.mgmt with clock := t, clockSet := true }
      lin := if t.day = s.mgmt.codeDay then s.lin else s.lin.resetSequences
      jrn := (s.jrn.write t tag (.engineClock s.mgmt.clock s.mgmt.clockSet)).publish } := by
  simp only [State.applyClock, beq_iff_eq]
  split <;> rfl

/-- What a direct command between operations leaves alone. -/
theorem State.applyBetween_frame (s : State) (tag : Nat) (b : Between) :
    (s.applyBetween tag b).1.evq = s.evq ∧ (s.applyBetween tag b).1.waiting = s.waiting ∧
      (s.applyBetween tag b).1.inFlight = s.inFlight := by
  rw [State.applyBetween_eq (s := s) rfl rfl rfl rfl tag b]
  exact ⟨rfl, rfl, rfl⟩

/-! ## The clock -/

theorem ClockInRange.of_clock {s t : State} (hs : ClockInRange s) (h : t.mgmt.clock = s.mgmt.clock) : ClockInRange t := by
  unfold ClockInRange
  rw [h]
  exact hs

theorem Move.clockInRange {s t : State} (h : Move s t) (hs : ClockInRange s) : ClockInRange t := by
  cases h with
  | settings m hm => exact hs.of_clock hm
  | reset => exact ⟨Nat.zero_le _, Nat.zero_le _, Nat.zero_le _⟩
  | advance =>
    obtain ⟨hd, hx, hh⟩ := hs
    unfold ClockInRange
    rw [State.advance_eq]
    exact nextReading_inRange hd hx hh
  | between tag b hi =>
    have he := s.applyBetween_effect tag b
    generalize (s.applyBetween tag b).1 = u at he ⊢
    cases he with
    | clock x hx hj =>
      rw [State.applyClock_eq]
      exact hx
    | nothing | vessel | meter | route | tables | hold | plant => exact hs
  | clear tag hi hj => exact hs.of_clock (by rw [State.clearOperation_eq])
  | operation e he => exact hs.of_clock (by rw [OpEnd.close_mgmt, (e.operation_frame s).mgmt])
  | take => exact hs.of_clock (by rw [s.settle_frame.mgmt])
  | port p x hr hb => exact hs.of_clock (by rw [State.setPort_mgmt])
  | wait w hw => exact hs.of_clock (by rw [State.setWaiting_mgmt, State.mgmt_reserve])
  | answered w rest r hw => exact hs.of_clock (by rw [State.answer_eq, State.setPort_mgmt, State.setWaiting_mgmt])
  | pending | release | decoder | lose | join | combine | refuse | timer | released => exact hs

/-- Settles O11: every move keeps the clock in range. -/
theorem everyStepKeepsClockInRange : Obligations.EveryStepKeepsClockInRange :=
  fun _ _ hs h => step_keeps (fun _ _ => Move.clockInRange) h hs

/-! ## The queue -/

section queue

theorem ordinaryCount_append (q r : List Entry) : ordinaryCount (q ++ r) = ordinaryCount q + ordinaryCount r := by
  simp only [ordinaryCount, List.filter_append, List.length_append]

/-- Combining replaces a reading by a reading. -/
theorem combineYoungest_bounds {v : EntryVal} (hv : v.combinable = true) {a : TimeStamp} {q r : List Entry}
    (h : combineYoungest v a q = some r) :
    ordinaryCount r = ordinaryCount q ∧ (r.filter Entry.isGap).length = (q.filter Entry.isGap).length := by
  induction q generalizing r with
  | nil => cases h
  | cons e t ih =>
    rw [combineYoungest] at h
    split at h
    · rename_i hsame
      obtain rfl := Option.some.inj h
      have he : e.isGap = false := Entry.isGap_of_val fun n hn => by
        rw [hn] at hsame
        cases v <;> cases hsame
      have he' : ({ e with val := v, arrival := a } : Entry).isGap = false := Entry.isGap_of_val fun n hn => by
        rw [show v = .gap n from hn] at hv
        cases hv
      simp [ordinaryCount, he, he']
    · split at h
      · obtain ⟨u, hu, rfl⟩ := Option.map_eq_some_iff.mp h
        obtain ⟨h1, h2⟩ := ih hu
        unfold ordinaryCount at h1 ⊢
        simp only [List.filter_cons]
        cases e.isGap <;> simp [h1, h2]
      · cases h

theorem combine_bounds {v : EntryVal} {a : TimeStamp} {q r : List Entry} (h : combine v a q = some r) :
    ordinaryCount r = ordinaryCount q ∧ (r.filter Entry.isGap).length = (q.filter Entry.isGap).length := by
  unfold combine at h
  split at h
  · rename_i hv
    obtain ⟨u, hu, rfl⟩ := Option.map_eq_some_iff.mp h
    have hb := combineYoungest_bounds hv hu
    simpa [ordinaryCount, List.filter_reverse] using hb
  · cases h

theorem gapHandling_bounds (a : TimeStamp) (q : List Entry) :
    ordinaryCount (gapHandling a q) = ordinaryCount q ∧ ((gapHandling a q).filter Entry.isGap).length ≤ 1 := by
  unfold gapHandling
  split
  · rename_i hnone
    have hno : q.filter Entry.isGap = [] := List.filter_eq_nil_iff.mpr (List.find?_eq_none.mp hnone)
    rw [ordinaryCount_append, List.filter_append, hno]
    exact ⟨rfl, Nat.le_refl 1⟩
  · rename_i g hg
    rw [ordinaryCount_append, List.filter_append]
    simp only [ordinaryCount, List.filter_filter]
    have hgap : ∀ x : Entry, (x.isGap && !x.isGap) = false := fun x => by cases x.isGap <;> rfl
    simp only [Bool.and_self, hgap, List.filter_false]
    exact ⟨rfl, Nat.le_refl 1⟩

theorem QueueBounded.of_evq {s t : State} (hs : QueueBounded s) (h : t.evq = s.evq) : QueueBounded t := by
  unfold QueueBounded
  rw [h]
  exact hs

theorem QueueBounded.append {s : State} (hs : QueueBounded s) {e : Entry} (hq : ordinaryCount s.evq < 63)
    (he : e.isGap = false) : QueueBounded (s.setEvq (s.evq ++ [e])) := by
  obtain ⟨_, h2⟩ := hs
  unfold QueueBounded
  rw [State.setEvq_evq, ordinaryCount_append, List.filter_append]
  simp only [ordinaryCount, List.filter_cons, he, List.filter_nil, Bool.not_false, if_true,
    Bool.false_eq_true, if_false, List.append_nil, List.length_singleton]
  exact ⟨hq, h2⟩

theorem QueueBounded.offerPending {s : State} (hs : QueueBounded s) (f : Nat) : QueueBounded (s.offerPending f) := by
  unfold State.offerPending
  split
  · exact hs
  · rename_i serial expiry _
    have hoffer : QueueBounded (s.offerIdle f serial expiry).1 := by
      unfold State.offerIdle State.append
      split
      · rename_i hq
        exact hs.append hq rfl
      · exact hs
    dsimp only
    split
    · exact hoffer.of_evq rfl
    · exact hoffer

theorem QueueBounded.settle {s : State} (hs : QueueBounded s) : QueueBounded s.settle := by
  unfold State.settle
  split
  · unfold State.takeNext
    split
    · exact hs
    · rename_i e rest heq
      have hrest : QueueBounded ((s.setEvq rest).setInFlight (some { toEntry := e, takenAt := s.now })) := by
        obtain ⟨h1, h2⟩ := hs
        rw [heq] at h1 h2
        refine ⟨le_trans ?_ h1, le_trans ?_ h2⟩
        · exact ((List.sublist_cons_self e rest).filter _).length_le
        · exact ((List.sublist_cons_self e rest).filter _).length_le
      dsimp only
      split
      · exact hrest
      · exact List.foldlRecOn (List.range 8) State.offerPending hrest fun u hu f _ => hu.offerPending f
  · exact hs

theorem Move.queueBounded {s t : State} (h : Move s t) (hs : QueueBounded s) : QueueBounded t := by
  cases h with
  | reset => exact ⟨Nat.zero_le _, Nat.zero_le _⟩
  | advance => exact hs.of_evq (by rw [State.advance_eq])
  | port p x hr hb => exact hs.of_evq (State.setPort_evq _ _ _)
  | wait w hw => exact hs.of_evq (by rw [State.setWaiting_evq, State.reserve_eq, State.setPort_evq])
  | answered w rest r hw => exact hs.of_evq (by rw [State.answer_eq, State.setPort_evq, State.setWaiting_evq])
  | join e hq he => exact hs.append hq he
  | combine v a q hq =>
    obtain ⟨h1, h2⟩ := combine_bounds hq
    exact ⟨h1.trans_le hs.1, h2.trans_le hs.2⟩
  | refuse a =>
    obtain ⟨h1, h2⟩ := gapHandling_bounds a s.evq
    exact ⟨h1.trans_le hs.1, h2⟩
  | take => exact hs.settle
  | between tag b hi => exact hs.of_evq (s.applyBetween_frame tag b).1
  | clear tag hi hj =>
    rw [State.clearOperation_eq]
    exact ⟨Nat.zero_le _, Nat.zero_le _⟩
  | operation e he => exact hs.of_evq (by rw [OpEnd.close_evq, (e.operation_frame s).evq])
  | pending | release | settings | decoder | lose | timer | released => exact hs

end queue

/-- Settles O36: every move keeps the queue bounded. -/
theorem everyStepKeepsQueueBounded : Obligations.EveryStepKeepsQueueBounded :=
  fun _ _ hs h => step_keeps (fun _ _ => Move.queueBounded) h hs

/-! ## The ports -/

section ports

theorem PortState.notified.bounded {x y : PortState} (h : x.notified y) (hx : x.bounded) :
    y.bounded ∧ y.reservations = x.reservations := by
  obtain ⟨ns, rfl, hns⟩ := h
  obtain ⟨hf, hi, hd, he⟩ := hx
  refine ⟨⟨hf, ?_, hd, fun hn => ⟨(he hn).1, ?_⟩⟩, rfl⟩
  · by_cases hnil : ns = []
    · subst hnil
      simpa using hi
    · have := (hns hnil).2
      simp only [List.length_append, List.length_map]
      exact this
  · by_cases hnil : ns = []
    · subst hnil
      simpa using (he hn).2
    · exact absurd (hns hnil).1 (by simp only at hn; rw [hn]; exact Bool.false_ne_true)

theorem PortsBounded.of_same {s t : State} (hs : PortsBounded s) (hp : ∀ p, t.port p = s.port p)
    (hw : t.waiting = s.waiting) : PortsBounded t := fun p => by
  rw [hp, State.waitingOn, hw]
  exact hs p

theorem State.waitingOn_setWaiting (s : State) (ws : List Waiting) (p : Port) :
    (s.setWaiting ws).waitingOn p = (ws.filter (fun w => w.port == p)).length := rfl

theorem PortState.settledReply_bounded {x : PortState} (lost : Bool) (r : Reply) (hx : x.bounded)
    (hr : 0 < x.reservations) : (x.settledReply lost r).bounded := by
  obtain ⟨hf, hi, hd, he⟩ := hx
  unfold PortState.settledReply
  split
  · exact ⟨hf, by simp only; omega, hd, he⟩
  · rename_i hup
    refine ⟨hf, ?_, hd, fun hn => absurd hn fun hn => hup (Or.inr hn)⟩
    simp only [List.length_append, List.length_singleton]
    omega

theorem PortState.settledReply_reservations (x : PortState) (lost : Bool) (r : Reply) :
    (x.settledReply lost r).reservations = x.reservations - 1 := by
  unfold PortState.settledReply
  split <;> rfl

theorem PortsBounded.wait {s : State} (hs : PortsBounded s) {w : Waiting} (hw : (s.port w.port).room = true) :
    PortsBounded ((s.reserve w.port).setWaiting (s.waiting ++ [w])) := fun p => by
  obtain ⟨hb, hr⟩ := hs p
  rw [PortState.room_iff] at hw
  rw [State.waitingOn_setWaiting, State.port_setWaiting, List.filter_append, List.length_append, State.reserve_eq,
    State.port_setPort]
  by_cases hp : w.port = p
  · subst hp
    obtain ⟨hf, _, hd, he⟩ := hb
    rw [if_pos rfl]
    simp only [List.filter_cons, beq_self_eq_true, if_true, List.filter_nil, List.length_singleton]
    exact ⟨⟨hf, hw, hd, he⟩, congrArg (· + 1) hr⟩
  · rw [if_neg hp]
    simp only [List.filter_cons, beq_iff_eq, hp, if_false, List.filter_nil, List.length_nil, Nat.add_zero]
    exact ⟨hb, hr⟩

theorem PortsBounded.answered {s : State} (hs : PortsBounded s) {w : Waiting} {rest : List Waiting}
    (hw : s.waiting = w :: rest) (r : Reply) : PortsBounded ((s.setWaiting rest).answer w.port w.lost r) := fun p => by
  obtain ⟨hb, hr⟩ := hs p
  unfold State.waitingOn at hr
  rw [hw] at hr
  have hwait : ((s.setWaiting rest).answer w.port w.lost r).waitingOn p =
      (rest.filter (fun w => w.port == p)).length := by
    rw [State.waitingOn, State.answer_eq, State.setPort_waiting, State.setWaiting_waiting]
  rw [hwait, State.answer_eq, State.port_setPort, State.port_setWaiting]
  by_cases hp : w.port = p
  · subst hp
    simp only [List.filter_cons, beq_self_eq_true, if_true, List.length_cons] at hr
    rw [if_pos rfl, PortState.settledReply_reservations, hr]
    exact ⟨PortState.settledReply_bounded _ _ hb (by omega), rfl⟩
  · simp only [List.filter_cons, beq_iff_eq, hp, if_false] at hr
    rw [if_neg hp, State.port_setWaiting]
    exact ⟨hb, hr⟩

theorem Move.portsBounded {s t : State} (h : Move s t) (hs : PortsBounded s) : PortsBounded t := by
  cases h with
  | reset => exact fun p => by cases p <;> exact ⟨⟨Nat.zero_le _, Nat.zero_le _, Nat.zero_le _, fun _ => ⟨rfl, rfl⟩⟩, rfl⟩
  | advance => exact hs.of_same (fun p => by rw [State.advance_eq]; cases p <;> rfl) (by rw [State.advance_eq])
  | port p x hr hb =>
    intro q
    obtain ⟨hq, hres⟩ := hs q
    rw [State.waitingOn, State.setPort_waiting, State.port_setPort]
    split
    · rename_i hpq
      subst hpq
      exact ⟨hb hq, hr.trans hres⟩
    · exact ⟨hq, hres⟩
  | lose p =>
    intro q
    obtain ⟨hq, hres⟩ := hs q
    refine ⟨hq, hres.trans ?_⟩
    have hport : ∀ w : Waiting, ((if w.port == p then { w with lost := true } else w).port == q) = (w.port == q) :=
      fun w => by split <;> rfl
    simp only [State.waitingOn_setWaiting, loseReplies, List.filter_map, List.length_map, Function.comp_def, hport]
    rfl
  | wait w hw => exact hs.wait hw
  | answered w rest r hw => exact hs.answered hw r
  | take => exact hs.of_same s.settle_frame.port s.settle_frame.waiting
  | between tag b hi => exact hs.of_same (s.applyBetween_port tag b) (s.applyBetween_frame tag b).2.1
  | clear tag hi hj => exact hs.of_same (fun p => by rw [State.clearOperation_eq]; cases p <;> rfl) (by rw [State.clearOperation_eq])
  | operation e he =>
    intro p
    obtain ⟨hb, hr⟩ := hs p
    have hf := e.operation_frame s
    obtain ⟨hb', hr'⟩ := (hf.ports p).bounded hb
    rw [OpEnd.close_port, State.waitingOn, OpEnd.close_waiting, hf.waiting]
    exact ⟨hb', hr'.trans hr⟩
  | pending | release | settings | decoder | join | combine | refuse | timer | released =>
    exact hs.of_same (fun p => by cases p <;> rfl) rfl

end ports

/-- Settles O9: every move keeps the ports bounded and a reservation for each command that waits. -/
theorem everyStepKeepsPortsBounded : Obligations.EveryStepKeepsPortsBounded :=
  fun _ _ hs h => step_keeps (fun _ _ => Move.portsBounded) h hs

/-! ## The order of the journal -/

section journal

variable {j : Journal}

/-- Records at consecutive sequences from the oldest on, whether published or not (R163). -/
def Journal.inSequence (j : Journal) : Prop :=
  (∀ k, ∀ h : k < j.records.length, (j.records[k]).seq = j.oldest + BitVec.ofNat 32 k) ∧
  j.written = j.oldest + BitVec.ofNat 32 j.records.length

theorem Journal.ordered_iff : j.ordered ↔ j.inSequence ∧ j.published = j.written := and_assoc.symm

theorem Journal.inSequence.write (h : j.inSequence) (t : TimeStamp) (k : Nat) (p : Payload) :
    (j.write t k p).inSequence := by
  obtain ⟨hs, hw⟩ := h
  constructor
  · intro i hi
    simp only [Journal.write, List.length_append, List.length_singleton] at hi ⊢
    rcases Nat.lt_or_ge i j.records.length with hlt | hge
    · rw [List.getElem_append_left hlt]
      exact hs i hlt
    · obtain rfl : i = j.records.length := by omega
      rw [List.getElem_append_right (Nat.le_refl _)]
      simpa using hw
  · simp only [Journal.write, List.length_append, List.length_singleton, hw, BitVec.ofNat_add, BitVec.add_assoc]
    rfl

theorem Journal.inSequence.writeAll (h : j.inSequence) (t : TimeStamp) (k : Nat) (ps : List Payload) :
    (j.writeAll t k ps).inSequence := by
  induction ps generalizing j with
  | nil => exact h
  | cons p ps ih => exact ih (h.write t k p)

theorem Journal.inSequence.publish (h : j.inSequence) : j.publish.ordered := ⟨h.1, h.2, rfl⟩

theorem Journal.ordered.publishAll (h : j.ordered) (t : TimeStamp) (k : Nat) (ps : List Payload) :
    (j.writeAll t k ps).publish.ordered := ((Journal.ordered_iff.mp h).1.writeAll t k ps).publish

/-- The published records of an ordered journal are all it holds, in the count of the sequences. -/
theorem Journal.ordered.publishedCount (h : j.ordered) : j.publishedCount = j.records.length % 2 ^ 32 := by
  obtain ⟨_, hw, hp⟩ := h
  rw [Journal.publishedCount, hp, hw, add_sub_cancel_left, BitVec.toNat_ofNat]

theorem Journal.ordered.release (h : j.ordered) {n : Seq} (hn : j.releaseCount n ≤ j.publishedCount) :
    (j.release n).ordered := by
  have hd : j.releaseCount n ≤ j.records.length := hn.trans (h.publishedCount ▸ Nat.mod_le _ _)
  have hold : n + 1 = j.oldest + BitVec.ofNat 32 (j.releaseCount n) := by
    rw [Journal.releaseCount, BitVec.ofNat_toNat, BitVec.setWidth_eq]
    ring
  obtain ⟨hs, hw, hp⟩ := h
  refine ⟨fun k hk => ?_, ?_, hp⟩
  · simp only [Journal.release, List.length_drop] at hk ⊢
    rw [List.getElem_drop, hs _ (by omega), hold, BitVec.add_assoc, BitVec.ofNat_add]
  · simp only [Journal.release, List.length_drop]
    rw [hw, hold, BitVec.add_assoc, ← BitVec.ofNat_add, Nat.add_sub_cancel' hd]

/-- The journal of an operation's end: what the operation and its end wrote, published. -/
theorem OpEnd.close_jrn {s : State} {o : OpEnd} {tag : Nat} (h : OpFrame tag s o.st) :
    ∃ ps, (o.close tag).jrn = (s.jrn.writeAll s.now tag ps).publish := by
  obtain ⟨ps, hps, _⟩ := h.jrn
  obtain ⟨sh, hs, _, hc⟩ := o.close_eq tag
  refine ⟨ps ++ (hs ++ o.after), ?_⟩
  rw [hc, hps, h.now, Journal.writeAll_append s.jrn]

theorem Move.journalOrdered {s t : State} (h : Move s t) (hs : s.jrn.ordered) : t.jrn.ordered := by
  cases h with
  | reset => exact ⟨fun k hk => absurd hk (Nat.not_lt_zero k), rfl, rfl⟩
  | advance => rwa [State.advance_eq]
  | port p x hr hb => rwa [State.setPort_jrn]
  | wait w hw => rwa [State.setWaiting_jrn, State.jrn_reserve]
  | answered w rest r hw => rwa [State.answer_eq, State.setPort_jrn]
  | take => rwa [s.settle_frame.jrn]
  | between tag b hi =>
    have he := s.applyBetween_effect tag b
    generalize (s.applyBetween tag b).1 = u at he ⊢
    cases he with
    | clock x hx hj =>
      rw [State.applyClock_eq]
      exact hs.publishAll x tag [.engineClock s.mgmt.clock s.mgmt.clockSet]
    | nothing | vessel | meter | route | tables | hold | plant => exact hs
  | released n hn => exact hs.release hn
  | clear tag hi hj =>
    rw [State.clearOperation_eq]
    exact hs.publishAll _ _ _
  | operation e he =>
    obtain ⟨ps, hps⟩ := OpEnd.close_jrn (o := e.operation s) (e.operation_frame s)
    rw [hps]
    exact hs.publishAll _ _ _
  | pending | release | settings | decoder | lose | join | combine | refuse | timer => exact hs

end journal

/-- Settles O38: every move keeps the journal ordered and published. -/
theorem everyStepKeepsJournalOrdered : Obligations.EveryStepKeepsJournalOrdered :=
  fun _ _ hs h => step_keeps (P := fun s => s.jrn.ordered) (fun _ _ => Move.journalOrdered) h hs

end Sys2Proof.Machine

/-! What every step keeps of the lineage state: a property kept by each way in which a move changes it. The
meters' residues and routes, O31, O35. -/

namespace Sys2Proof.Machine

open Sys2Proof

/-! ## The ways in which a move changes the lineage state -/

/-- Filler records that differ in timers, counters and pending idle closes alone. -/
def Lineage.SameBatches (l : Lineage) (xs : Vector Filler 8) : Prop :=
  ∀ f, f < 8 → (vget xs f {}).state = (l.filler f).state ∧ (vget xs f {}).ring = (l.filler f).ring

/-- A property of the lineage state that reset has and every change of a move keeps. -/
structure LinKept (P : Lineage → Prop) : Prop where
  reset : P {}
  fillers : ∀ (l : Lineage) (xs : Vector Filler 8), l.SameBatches xs → P l → P { l with fillers := xs }
  tables : ∀ (l : Lineage) (ct : Vector (Vector (Fin 8) 8) 8) (a b c : Nat), P l →
    P { l with catTab := ct, collNext := a, blendNext := b, batchNext := c }
  meter : ∀ (l : Lineage) (m w num den j : Nat), 1 ≤ den → P l → P (l.setMeter m { l.meter m with
    configured := true, width := w, num := num, den := den, jump := j, refValid := false, residue := 0 })
  route : ∀ (l : Lineage) (r : RouteArgs), l.checkLoadRoute r = .done → P l →
    P (l.setEntry ((bankOfByte r.bank).getD .a) r.index (routeEntryOf r))
  vessel : ∀ (l : Lineage) (v : Nat) (cfg : VesselCfg), l.checkLoadVessel v cfg = .done → P l →
    P (l.applyLoadVessel v cfg)
  clear : ∀ (l : Lineage) (now : TimeStamp), P l → P (l.cleared now)
  operation : ∀ (s : State) (e : TakenEntry), P s.lin → P (e.operation s).st.lin

section kept

variable {P : Lineage → Prop} (hP : LinKept P)

theorem Lineage.sameBatches_setFiller (l : Lineage) (f : Nat) {x : Filler} (hs : x.state = (l.filler f).state)
    (hr : x.ring = (l.filler f).ring) : l.SameBatches (vset l.fillers f x) := by
  intro g hg
  by_cases hfg : f = g
  · subst hfg
    rw [vget_vset_same _ _ _ _ hg]
    exact ⟨hs, hr⟩
  · rw [vget_vset_ne _ _ _ _ _ hfg]
    exact ⟨rfl, rfl⟩

theorem Lineage.sameBatches_map (l : Lineage) {g : Filler → Filler} (hs : ∀ x, (g x).state = x.state)
    (hr : ∀ x, (g x).ring = x.ring) : l.SameBatches (l.fillers.map g) := by
  intro f hf
  rw [vget_map (d := {}) (h := hf)]
  exact ⟨hs _, hr _⟩

include hP

theorem LinKept.sequences {l : Lineage} (h : P l) : P l.resetSequences :=
  hP.fillers l _ (l.sameBatches_map (fun _ => rfl) (fun _ => rfl)) h

theorem LinKept.idle {l k : Lineage} (hi : SameButIdle l k) (h : P l) : P k := by
  obtain ⟨g, rfl⟩ := hi
  refine hP.fillers l _ (fun f hf => ?_) h
  rw [vget_mapIdx (d := {}) (h := hf)]
  exact ⟨rfl, rfl⟩

theorem LinKept.move {s t : State} (h : Move s t) (hs : P s.lin) : P t.lin := by
  cases h with
  | reset => exact hP.reset
  | advance =>
    rw [State.advance_eq]
    dsimp only
    split
    · exact hP.sequences hs
    · exact hs
  | port p x hr hb => rwa [State.setPort_lin]
  | wait w hw => rwa [State.setWaiting_lin, State.reserve_eq, State.setPort_lin]
  | answered w rest r hw => rwa [State.answer_eq, State.setPort_lin]
  | timer f x hst hr => exact hP.fillers s.lin _ (s.lin.sameBatches_setFiller f hst hr) hs
  | take => exact hP.idle s.settle_frame.lin hs
  | between tag b hi =>
    have he := s.applyBetween_effect tag b
    generalize (s.applyBetween tag b).1 = u at he ⊢
    cases he with
    | vessel v cfg hc => exact hP.vessel _ _ _ hc hs
    | meter m w num den j hden => exact hP.meter _ _ _ _ _ _ hden hs
    | route r hc => exact hP.route _ _ hc hs
    | tables ct a b c => exact hP.tables _ _ _ _ _ hs
    | clock x hx hj =>
      rw [State.applyClock_eq]
      dsimp only
      split
      · exact hs
      · exact hP.sequences hs
    | nothing | hold | plant => exact hs
  | clear tag hi hj =>
    rw [State.clearOperation_eq]
    exact hP.clear _ _ hs
  | operation e he =>
    rw [OpEnd.close_lin]
    exact hP.operation s e hs
  | pending | release | settings | decoder | lose | join | combine | refuse | released => exact hs

theorem LinKept.step {s t : State} (h : step s = .next t) (hs : P s.lin) : P t.lin :=
  step_keeps (P := fun s => P s.lin) (fun _ _ => hP.move) h hs

end kept

/-! ## Operations that leave the routing alone -/

/-- An entry whose operation leaves meters and valves alone. -/
def EntryVal.routesNothing : EntryVal → Prop
  | .meter .. | .valve .. | .switchBank => False
  | _ => True

theorem TakenEntry.operation_routing (e : TakenEntry) (s : State) (he : e.val.routesNothing) :
    FullFrame e.tag s (e.operation s).st := by
  obtain ⟨⟨v, a, t, c⟩, w⟩ := e
  cases v with
  | meter m n => exact he.elim
  | valve k x => exact he.elim
  | switchBank => exact he.elim
  | manifest i => exact s.opManifest_frame t w i
  | compSelect b x k => exact s.opCompSelect_frame t b x k
  | compDone b => exact s.opCompDone_frame t b
  | compReject b x k => exact s.opCompReject_frame t b x k
  | cipStart v => exact s.opCipStart_frame t v
  | cipEnd v => exact s.opCipEnd_frame t v
  | batchOpen f p k => exact s.opBatchOpen_frame t c f p k
  | batchClose f => exact s.opBatchClose_frame t f
  | carton f n => exact s.opCarton_frame t f n
  | dispatch k n x => exact s.opDispatch_frame t k n x
  | idleClose f n x => exact s.opIdleClose_frame t f n x
  | gap n => exact s.opGap_frame t n
  | vesselWrite w => exact s.opVesselWrite_frame t w
  | manualTransfer x y v => exact s.opManual_frame t x y v
  | suspectKey k => exact s.opMark_frame t false (.key k)
  | suspectSample n => exact s.opMark_frame t false (.sample n)
  | suspectFarm n => exact s.opMark_frame t false (.farm n)
  | releaseKey k => exact s.opMark_frame t true (.key k)
  | releaseSample n => exact s.opMark_frame t true (.sample n)
  | releaseFarm n => exact s.opMark_frame t true (.farm n)
  | holdRelease a => exact s.opHoldRelease_frame t a

/-- A property of the meters, the Valve Image and the banks that the three routing operations keep, every
operation keeps. -/
theorem operation_keeps {P : Lineage → Prop} (hseg : ∀ l k, SegFrame l k → P l → P k)
    (hmeter : ∀ (l : Lineage) (m t : Nat), (l.meter m).configured = true → P l →
      P (l.setMeter m (readMeterTotal (l.meter m) t).meter))
    (hvalve : ∀ (l : Lineage) (now : TimeStamp) (c : Nat) (v : Word16), P l → P (l.valveSet now c v))
    (hswitch : ∀ (l : Lineage) (now : TimeStamp), P l →
      P (({ l with active := l.active.other } : Lineage).resolveAll.openAll now))
    (s : State) (e : TakenEntry) (h : P s.lin) : P (e.operation s).st.lin := by
  by_cases he : e.val.routesNothing
  · exact hseg _ _ (e.operation_routing s he).toSeg h
  · obtain ⟨⟨v, a, t, c⟩, w⟩ := e
    cases v with
    | meter m n =>
      refine hseg _ _ (s.opMeter_frame t m n).seg ?_
      split
      · rename_i hc
        exact hmeter _ _ _ hc h
      · exact h
    | valve k x =>
      change P (s.opValve t k x).lin
      rw [State.opValve_eq]
      exact hvalve _ _ _ _ h
    | switchBank =>
      simp only [TakenEntry.operation, State.opSwitchBank_eq]
      exact hswitch _ _ h
    | _ => exact absurd trivial he

/-! ## LOAD_VESSEL and the routing -/

theorem Lineage.spoilInactive_eq (l : Lineage) (v : Nat) (k : VesselKind) : ∃ a b,
    l.spoilInactive v k = { l with bankA := a, bankB := b } ∧
      ({ l with bankA := a, bankB := b } : Lineage).bank l.active = l.bank l.active := by
  unfold Lineage.spoilInactive
  split
  · rename_i h
    exact ⟨l.bankA, _, rfl, by rw [h]; rfl⟩
  · rename_i h
    exact ⟨_, l.bankB, rfl, by rw [h]; rfl⟩

theorem Lineage.freshParts_eq (l : Lineage) (cfg : VesselCfg) : ∃ rs fs,
    l.freshParts cfg = { l with rings := rs, fillers := fs } := by
  cases cfg with
  | bay i t => exact ⟨_, l.fillers, rfl⟩
  | filler i n c p t a => exact ⟨l.rings, _, rfl⟩
  | _ => exact ⟨l.rings, l.fillers, rfl⟩

/-- A LOAD_VESSEL writes vessels, rings and fillers, and the bank that is not active. -/
theorem Lineage.applyLoadVessel_eq (l : Lineage) (v : Nat) (cfg : VesselCfg) : ∃ vs rs fs a b,
    l.applyLoadVessel v cfg = { l with vessels := vs, rings := rs, fillers := fs, bankA := a, bankB := b } ∧
      (l.applyLoadVessel v cfg).bank l.active = l.bank l.active := by
  obtain ⟨rs, fs, hf⟩ := l.freshParts_eq cfg
  simp only [Lineage.applyLoadVessel]
  split
  · rw [hf]
    split
    · exact ⟨_, rs, fs, l.bankA, l.bankB, rfl, by cases l.active <;> rfl⟩
    · obtain ⟨a, b, hs, hb⟩ := Lineage.spoilInactive_eq
        (({ l with rings := rs, fillers := fs } : Lineage).setVessel v ((freshVessel cfg).configure cfg)) v cfg.vesselKind
      refine ⟨_, rs, fs, a, b, hs, ?_⟩
      rw [hs]
      exact hb.trans (by cases l.active <;> rfl)
  · exact ⟨_, l.rings, l.fillers, l.bankA, l.bankB, rfl, by cases l.active <;> rfl⟩

theorem Lineage.applyLoadVessel_routing (l : Lineage) (v : Nat) (cfg : VesselCfg) :
    SameRouting l (l.applyLoadVessel v cfg) := by
  obtain ⟨_, _, _, _, _, h, _⟩ := l.applyLoadVessel_eq v cfg
  rw [h]
  exact ⟨rfl, rfl, rfl⟩

/-! ## Residues -/

/-- A lineage state whose meters have denominators of at least 1 and residues below them (R22, R25). -/
def Lineage.residuesBelow (l : Lineage) : Prop :=
  ∀ m, m < 48 → 1 ≤ (l.meter m).den ∧ (l.meter m).residue < (l.meter m).den

theorem Lineage.residuesBelow.of_meters {l k : Lineage} (hl : l.residuesBelow)
    (h : ∀ m, m < 48 → (k.meter m).den = (l.meter m).den ∧ (k.meter m).residue = (l.meter m).residue) :
    k.residuesBelow := fun m hm => by
  obtain ⟨hd, hr⟩ := h m hm
  rw [hd, hr]
  exact hl m hm

theorem Lineage.residuesBelow.setMeter {l : Lineage} (hl : l.residuesBelow) (m : Nat) {x : Meter} (hd : 1 ≤ x.den)
    (hr : x.residue < x.den) : (l.setMeter m x).residuesBelow := fun k hk => by
  by_cases hmk : m = k
  · subst hmk
    rw [Lineage.setMeter_same hk]
    exact ⟨hd, hr⟩
  · rw [Lineage.setMeter_ne hmk]
    exact hl k hk

/-- A reading keeps the residue below the denominator: it is a remainder by it (R25). -/
theorem readMeterTotal_residue {x : Meter} (hd : 1 ≤ x.den) (hr : x.residue < x.den) (t : Nat) :
    1 ≤ (readMeterTotal x t).meter.den ∧ (readMeterTotal x t).meter.residue < (readMeterTotal x t).meter.den := by
  unfold readMeterTotal
  dsimp only
  split
  · exact ⟨hd, hr⟩
  · split
    · exact ⟨hd, hr⟩
    · exact ⟨hd, Nat.mod_lt _ hd⟩

theorem residuesBelow_kept : LinKept Lineage.residuesBelow where
  reset := fun m _ => by
    rw [reset_meter]
    exact ⟨Nat.le_refl _, Nat.zero_lt_one⟩
  fillers := fun _ _ _ h => h
  tables := fun _ _ _ _ _ h => h
  meter := fun _ m _ _ _ _ hden h => h.setMeter m hden hden
  route := fun l r _ h => h.of_meters fun m _ => by unfold Lineage.setEntry; split <;> exact ⟨rfl, rfl⟩
  vessel := fun l v cfg _ h => h.of_meters fun m _ => by
    rw [Lineage.meter, (l.applyLoadVessel_routing v cfg).meters]
    exact ⟨rfl, rfl⟩
  clear := fun l now h m hm => by
    rw [Lineage.cleared_meter l now hm]
    exact ⟨(h m hm).1, (h m hm).1⟩
  operation := operation_keeps
    (fun l k hseg h => h.of_meters fun m _ => by
      obtain ⟨g, hg⟩ := hseg.meters m
      rw [hg]
      exact ⟨rfl, rfl⟩)
    (fun l m t _ h => by
      by_cases hm : m < 48
      · obtain ⟨hd, hr⟩ := h m hm
        obtain ⟨hd', hr'⟩ := readMeterTotal_residue hd hr t
        exact h.setMeter m hd' hr'
      · exact h.of_meters fun k hk => by
          rw [Lineage.setMeter_ne (by omega)]
          exact ⟨rfl, rfl⟩)
    (fun l now c v h => h.of_meters fun m hm => by
      rw [Lineage.meter_valveSet _ _ _ _ hm]
      split
      · split <;> exact ⟨rfl, rfl⟩
      · exact ⟨rfl, rfl⟩)
    (fun l now h => h.of_meters fun m hm => by
      rw [Lineage.resolveOpen_meter _ _ hm]
      exact ⟨rfl, rfl⟩)

/-- Settles O31: a residue is the remainder by its denominator, or 0. -/
theorem everyStepKeepsResiduesBelowDenominators : Obligations.EveryStepKeepsResiduesBelowDenominators :=
  fun _ _ hs h => residuesBelow_kept.step h hs

/-! ## Routes -/

/-- A lineage state whose meters' routes are their resolutions (R83). -/
def Lineage.routesResolved (l : Lineage) : Prop := ∀ m, m < 48 → (l.meter m).route = l.resolve m

/-- A resolution reads the active bank and the Valve Image. -/
theorem Lineage.resolve_congr {l k : Lineage} (ha : k.active = l.active) (hb : k.bank l.active = l.bank l.active)
    (hc : k.clusters = l.clusters) (m : Nat) : k.resolve m = l.resolve m := by
  have he : ∀ i, k.activeEntry i = l.activeEntry i := fun i => by rw [Lineage.activeEntry, ha, hb, Lineage.activeEntry]
  have hh : ∀ e, k.entryHolds e = l.entryHolds e := fun e => by
    unfold Lineage.entryHolds Lineage.condHolds
    rw [hc]
  unfold Lineage.resolve
  simp only [he, hh, ha]

theorem Lineage.routesResolved.congr {l k : Lineage} (h : l.routesResolved)
    (hm : ∀ m, m < 48 → (k.meter m).route = (l.meter m).route) (hr : ∀ m, k.resolve m = l.resolve m) :
    k.routesResolved := fun m hlt => by rw [hm m hlt, hr, h m hlt]

theorem Lineage.meter_setMeter_route (l : Lineage) (m : Nat) {x : Meter} (hx : x.route = (l.meter m).route) (k : Nat)
    (hk : k < 48) : ((l.setMeter m x).meter k).route = (l.meter k).route := by
  by_cases hmk : m = k
  · subst hmk
    rw [Lineage.setMeter_same hk, hx]
  · rw [Lineage.setMeter_ne hmk]

theorem readMeterTotal_route (x : Meter) (t : Nat) : (readMeterTotal x t).meter.route = x.route := by
  unfold readMeterTotal
  dsimp only
  split
  · rfl
  · split <;> rfl

/-- A cluster on which no entry of a meter depends has no say in its resolution (R85). -/
theorem Lineage.resolve_setCluster (l : Lineage) {c m : Nat} (h : l.dependsOn c m = false) (v : Word16) :
    (l.setCluster c v).resolve m = l.resolve m := by
  unfold Lineage.resolve
  refine congrArg (Option.map _) (List.find?_congr fun i hi => ?_)
  change ((l.activeEntry i).meter == m && (l.setCluster c v).entryHolds (l.activeEntry i)) = _
  by_cases hm : (l.activeEntry i).meter = m ∧ (l.activeEntry i).valid = true
  · obtain ⟨hmeter, hvalid⟩ := hm
    have hall : ∀ x ∈ (l.activeEntry i).inUse, x.cluster ≠ c := fun x hx hc => by
      refine Bool.eq_false_iff.mp h ?_
      simp only [Lineage.dependsOn, List.any_eq_true, Bool.and_eq_true, beq_iff_eq]
      exact ⟨i, hi, ⟨hvalid, hmeter⟩, x, hx, hc⟩
    refine congrArg _ ?_
    rw [Bool.eq_iff_iff, Lineage.entryHolds_iff, Lineage.entryHolds_iff]
    refine and_congr_right fun _ => forall₂_congr fun x hx => ?_
    rw [Lineage.setCluster, vget_vset_ne _ _ _ _ _ (hall x hx).symm]
  · rw [not_and_or] at hm
    rcases hm with hm | hv
    · rw [beq_eq_false_iff_ne.mpr hm, Bool.false_and, Bool.false_and]
    · simp [Lineage.entryHolds, hv]

theorem Lineage.routesResolved.valveSet {l : Lineage} (h : l.routesResolved) (now : TimeStamp) (c : Nat) (v : Word16) :
    (l.valveSet now c v).routesResolved := fun m hm => by
  rw [Lineage.meter_valveSet _ _ _ _ hm]
  split
  · split <;> rfl
  · rename_i hd
    rw [h m hm, Lineage.resolve_valveSet, Lineage.resolve_setCluster _ (by simpa using hd)]

/-- A LOAD_ROUTE that its checks let pass writes the bank that is not active (R82). -/
theorem Lineage.checkLoadRoute_inactive {l : Lineage} {r : RouteArgs} (h : l.checkLoadRoute r = .done) :
    (bankOfByte r.bank).getD .a ≠ l.active := by
  unfold Lineage.checkLoadRoute at h
  split at h
  · cases h
  · rename_i k hk
    rw [hk]
    intro hka
    simp only [Option.getD_some] at hka
    simp only [hka, beq_self_eq_true, if_true] at h
    split at h <;> cases h

theorem Lineage.bank_setEntry_ne (l : Lineage) {k active : Bank} (h : k ≠ active) (i : Nat) (e : RouteEntry) :
    (l.setEntry k i e).bank active = l.bank active := by
  cases k <;> cases active <;> first | rfl | exact absurd rfl h

theorem routesResolved_kept : LinKept Lineage.routesResolved where
  reset := fun m _ => by rw [reset_meter, reset_resolve]
  fillers := fun _ _ _ h => h
  tables := fun _ _ _ _ _ h => h
  meter := fun l m _ _ _ _ _ h => h.congr (l.meter_setMeter_route m rfl) fun k => l.resolve_setMeter m _ k
  route := fun l r hc h => by
    have hb := l.bank_setEntry_ne (Lineage.checkLoadRoute_inactive hc) r.index (routeEntryOf r)
    refine h.congr (fun m _ => ?_) fun m => Lineage.resolve_congr ?_ hb ?_ m <;>
      (unfold Lineage.setEntry; split <;> rfl)
  vessel := fun l v cfg _ h => by
    obtain ⟨_, _, _, _, _, heq, hb⟩ := l.applyLoadVessel_eq v cfg
    have hr := l.applyLoadVessel_routing v cfg
    exact h.congr (fun m _ => by rw [Lineage.meter, hr.meters]; rfl) fun m =>
      Lineage.resolve_congr hr.active hb hr.clusters m
  clear := fun l now _ m hm => by rw [Lineage.cleared_meter l now hm]
  operation := operation_keeps
    (fun l k hseg h => h.congr (fun m _ => by obtain ⟨g, hg⟩ := hseg.meters m; rw [hg]) fun m =>
      Lineage.resolve_congr hseg.active (by cases l.active; exacts [hseg.bankA, hseg.bankB]) hseg.clusters m)
    (fun l m t _ h => h.congr (l.meter_setMeter_route m (readMeterTotal_route _ t)) fun k => l.resolve_setMeter m _ k)
    (fun l now c v h => h.valveSet now c v)
    (fun l now _ m hm => by
      rw [Lineage.resolveOpen_meter _ _ hm, Lineage.resolveOpen_eq]
      rfl)

/-- Settles O35: a route is resolved anew where what it is resolved from changes. -/
theorem everyStepKeepsRoutesResolved : Obligations.EveryStepKeepsRoutesResolved :=
  fun _ _ hs h => routesResolved_kept.step h hs

end Sys2Proof.Machine

/-! How many records an operation writes, and that no Recent Batch ring outgrows its eight places: O40, O39. Both
are followed along the shared operations, in the order in which they call one another. -/

namespace Sys2Proof.Machine

open Sys2Proof

/-! ## The lengths of the Recent Batch rings -/

/-- No Recent Batch ring holds more than 8 records (R99). -/
def Lineage.ringsFit (l : Lineage) : Prop := ∀ f, f < 8 → (l.filler f).ring.length ≤ 8

/-- The Recent Batch rings keep their lengths. -/
def Lineage.SameLengths (l k : Lineage) : Prop := ∀ f, (k.filler f).ring.length = (l.filler f).ring.length

section lengths

variable {l k m : Lineage}

theorem Lineage.SameLengths.of_fillers (h : k.fillers = l.fillers) : l.SameLengths k := fun f => by
  unfold Lineage.filler
  rw [h]

theorem Lineage.SameLengths.refl (l : Lineage) : l.SameLengths l := fun _ => rfl

theorem Lineage.SameLengths.trans (h : l.SameLengths k) (g : k.SameLengths m) : l.SameLengths m :=
  fun f => (g f).trans (h f)

theorem Lineage.SameLengths.ringsFit (h : l.SameLengths k) (hl : l.ringsFit) : k.ringsFit :=
  fun f hf => (h f).symm ▸ hl f hf

theorem Lineage.SameLengths.setFiller (h : l.SameLengths k) (f : Nat) {x : Filler}
    (hx : x.ring.length = (k.filler f).ring.length) : l.SameLengths (k.setFiller f x) := fun g => by
  by_cases hg : f = g ∧ f < 8
  · obtain ⟨rfl, hf⟩ := hg
    rw [Lineage.setFiller_same hf]
    exact hx.trans (h f)
  · unfold Lineage.filler Lineage.setFiller
    rw [vget_vset, if_neg hg]
    exact h g

theorem Lineage.SameLengths.setVessel (h : l.SameLengths k) (v : Nat) (x : Vessel) :
    l.SameLengths (k.setVessel v x) := h.trans (.of_fillers rfl)

theorem Lineage.SameLengths.setRing (h : l.SameLengths k) (b : Nat) (x : Ring) :
    l.SameLengths (k.setRing b x) := h.trans (.of_fillers rfl)

theorem Lineage.SameLengths.setState (h : l.SameLengths k) (f : Nat) (x : FillerState) :
    l.SameLengths (k.setFiller f { k.filler f with state := x }) := h.setFiller f rfl

theorem modifyLast_length (g : Batch → Batch) (bs : List Batch) : (modifyLast g bs).length = bs.length := by
  cases bs using List.reverseRecOn with
  | nil => rfl
  | append_singleton bs b => rw [modifyLast_concat, List.length_append, List.length_append]; rfl

theorem Filler.modifyOpen_length (x : Filler) (g : Batch → Batch) :
    (x.modifyOpen g).ring.length = x.ring.length := by
  unfold Filler.modifyOpen
  split
  · exact modifyLast_length g x.ring
  · rfl

theorem Lineage.SameLengths.modifyOpenOf (h : l.SameLengths k) (v : Vessel) (g : Batch → Batch) :
    l.SameLengths (k.modifyOpenOf v g) :=
  h.setFiller _ (Filler.modifyOpen_length _ g)

theorem Lineage.SameLengths.releaseAll (h : l.SameLengths k) (ks : List Key) : l.SameLengths (k.releaseAll ks) :=
  h.trans (.of_fillers (by rw [Lineage.releaseAll_eq, Lineage.withRecords_fillers]))

theorem Lineage.SameLengths.addRefs (h : l.SameLengths k) (ks : List Key) : l.SameLengths (k.addRefs ks) := by
  have he : k.addRefs ks = k.withRecords (k.addRefs ks) := by
    have := Lineage.addRefs_withRecords k k ks
    rwa [Lineage.withRecords_self] at this
  exact h.trans (.of_fillers (by rw [he, Lineage.withRecords_fillers]))

theorem Lineage.SameLengths.fold {α : Type} (f : Lineage → α → Lineage)
    (hf : ∀ k a, l.SameLengths k → l.SameLengths (f k a)) (as : List α) (h : l.SameLengths k) :
    l.SameLengths (as.foldl f k) := by
  induction as generalizing k with
  | nil => exact h
  | cons a as ih => exact ih (hf k a h)

theorem Lineage.SameLengths.setUncertain (h : l.SameLengths k) (v : Nat) : l.SameLengths (k.setUncertain v) := by
  unfold Lineage.setUncertain
  dsimp only
  split
  · exact h
  · exact h.setVessel _ _
  · exact h.setVessel _ _
  · exact h.modifyOpenOf _ _

theorem Lineage.SameLengths.setUncertainAll (h : l.SameLengths k) (vs : List Nat) :
    l.SameLengths (k.setUncertainAll vs) :=
  .fold _ (fun _ v hk => hk.setUncertain v) vs h

theorem Lineage.SameLengths.rederive (h : l.SameLengths k) (v : Nat) : l.SameLengths (k.rederive v) := by
  unfold Lineage.rederive
  dsimp only
  split
  · exact h
  · exact h.setVessel _ _
  · exact h.setVessel _ _
  · exact h.modifyOpenOf _ _

theorem Lineage.SameLengths.setList (h : l.SameLengths k) (v : Nat) (x : List Share) :
    l.SameLengths (k.setList v x) := by
  unfold Lineage.setList
  dsimp only
  split
  · exact h.modifyOpenOf _ _
  · exact h.setVessel _ _

theorem Lineage.SameLengths.setCat (h : l.SameLengths k) (v : Nat) (c : Cat) : l.SameLengths (k.setCat v c) := by
  unfold Lineage.setCat
  dsimp only
  split
  · exact h.modifyOpenOf _ _
  · exact h.setVessel _ _

theorem Lineage.SameLengths.makeOpaque (h : l.SameLengths k) (e : WriteEntry) : l.SameLengths (k.makeOpaque e) := by
  have he := Lineage.makeOpaque_withRecords k k e
  rw [Lineage.withRecords_self] at he
  exact h.trans (.of_fillers (by rw [he, Lineage.withRecords_fillers]))

theorem Lineage.SameLengths.applyWrite (h : l.SameLengths k) (w : WriteArgs) : l.SameLengths (k.applyWrite w) := by
  unfold Lineage.applyWrite
  dsimp only
  exact .rederive (.setVessel (.releaseAll (.addRefs (.fold _ (fun _ e hk => hk.makeOpaque e) _ h) _) _) _ _) _

theorem Lineage.SameLengths.rederiveBatches (h : l.SameLengths k) : l.SameLengths k.rederiveBatches := fun f => by
  refine (?_ : _ = (k.filler f).ring.length).trans (h f)
  unfold Lineage.rederiveBatches Lineage.filler
  dsimp only
  by_cases hf : f < 8
  · rw [vget_map (d := {}) (h := hf)]
    exact List.length_map _
  · simp [vget, hf]

theorem Lineage.SameLengths.rederiveVessels (h : l.SameLengths k) : l.SameLengths k.rederiveVessels :=
  .fold _ (fun _ v hk => hk.rederive v) _ h

/-- Marking changes no filler record. -/
theorem Lineage.marks_fillers (l : Lineage) (release : Bool) (a : MarkArg) :
    (l.marks release a).lin.fillers = l.fillers := by
  unfold Lineage.marks Lineage.markKey Lineage.markSample Lineage.releaseFarm Lineage.suspectFarm
  repeat' split
  all_goals rfl

theorem Lineage.pass_fillers (l : Lineage) : l.pass.1.fillers = l.fillers := by
  have hv : ∀ (acc : Lineage × Nat) n, (Lineage.visit acc n).1.fillers = acc.1.fillers := by
    intro acc n
    unfold Lineage.visit
    split
    · rfl
    · split <;> rfl
  have h : ∀ (ns : List Nat) (acc : Lineage × Nat), (ns.foldl Lineage.visit acc).1.fillers = acc.1.fillers := by
    intro ns
    induction ns with
    | nil => exact fun _ => rfl
    | cons n ns ih => exact fun acc => (ih _).trans (hv acc n)
  exact h _ (l, 0)

theorem Lineage.passes_fillers (fuel : Nat) (l : Lineage) : (Lineage.passes fuel l).1.fillers = l.fillers := by
  induction fuel generalizing l with
  | zero => rfl
  | succ n ih =>
    unfold Lineage.passes
    dsimp only
    split
    · exact l.pass_fillers
    · exact (ih _).trans l.pass_fillers

/-- A sweep changes no filler record. -/
theorem Lineage.sweep_fillers (l : Lineage) (release : Bool) (d : Option Nat) :
    (l.sweep release d).1.fillers = l.fillers := by
  unfold Lineage.sweep
  refine (Lineage.passes_fillers _ _).trans ?_
  split
  · rfl
  · unfold Lineage.markDirect
    split <;> rfl

/-- Rings that fit hold 64 batches in all. -/
theorem Lineage.ringsFit.allBatches_le (h : l.ringsFit) : l.allBatches.length ≤ 64 := by
  unfold Lineage.allBatches
  rw [List.length_flatMap]
  have hb : ∀ n ∈ l.fillers.toList.map (fun x => x.ring.length), n ≤ 8 := by
    intro n hn
    obtain ⟨x, hx, rfl⟩ := List.mem_map.mp hn
    obtain ⟨i, hi, rfl⟩ := List.mem_iff_getElem.mp hx
    have hi8 : i < 8 := by simpa using hi
    have := h i hi8
    rwa [Lineage.filler, vget_lt _ _ _ hi8] at this
  simpa using List.sum_le_card_nsmul _ 8 hb

end lengths

/-! ## Writing records -/

/-- At most `n` records of one time and one tag written, the clock as it stood, and the rings still fit where they
did. -/
structure Wrote (n tag : Nat) (s t : State) : Prop where
  mgmt : t.mgmt = s.mgmt
  jrn : ∃ ps, t.jrn = s.jrn.writeAll s.now tag ps ∧ ps.length ≤ n
  rings : s.lin.ringsFit → t.lin.ringsFit

section wrote

variable {n m tag : Nat} {s t u : State}

theorem Wrote.refl (s : State) : Wrote n tag s s := ⟨rfl, ⟨[], rfl, Nat.zero_le n⟩, id⟩

theorem Wrote.trans (h : Wrote n tag s t) (g : Wrote m tag t u) : Wrote (n + m) tag s u := by
  obtain ⟨ps, hps, hn⟩ := h.jrn
  obtain ⟨qs, hqs, hm⟩ := g.jrn
  have hnow : t.now = s.now := congrArg Mgmt.clock h.mgmt
  refine ⟨g.mgmt.trans h.mgmt, ⟨ps ++ qs, ?_, ?_⟩, g.rings ∘ h.rings⟩
  · rw [hqs, hps, hnow, Journal.writeAll_append]
  · rw [List.length_append]
    exact Nat.add_le_add hn hm

theorem Wrote.mono (h : Wrote n tag s t) (hm : n ≤ m) : Wrote m tag s t :=
  ⟨h.mgmt, h.jrn.imp fun _ hp => ⟨hp.1, hp.2.trans hm⟩, h.rings⟩

theorem Wrote.ite {c : Prop} [Decidable c] (h : Wrote n tag s t) (g : Wrote n tag s u) :
    Wrote n tag s (if c then t else u) := by
  split
  · exact h
  · exact g

theorem Wrote.of_rings (hm : t.mgmt = s.mgmt) (hj : t.jrn = s.jrn) (hr : s.lin.ringsFit → t.lin.ringsFit) :
    Wrote n tag s t :=
  ⟨hm, ⟨[], hj, Nat.zero_le n⟩, hr⟩

theorem Wrote.setLin (h : Wrote n tag s t) {l : Lineage} (hl : t.lin.SameLengths l) : Wrote n tag s (t.setLin l) :=
  h.trans (m := 0) (.of_rings rfl rfl hl.ringsFit)

theorem Wrote.write (h : Wrote n tag s t) (p : Payload) : Wrote (n + 1) tag s (t.write tag p) :=
  h.trans ⟨rfl, ⟨[p], rfl, Nat.le_refl 1⟩, id⟩

theorem Wrote.raise (h : Wrote n tag s t) (f : Option Nat) (c : CondVals) :
    Wrote (n + 1) tag s (t.raise tag f c) := by
  refine h.trans ?_
  rw [State.raise_eq]
  split
  · exact ⟨rfl, ⟨[_], rfl, Nat.le_refl 1⟩, id⟩
  · exact .of_rings rfl rfl id

theorem Wrote.setUncertain (h : Wrote n tag s t) (v : Nat) : Wrote n tag s (t.setUncertain v) :=
  h.setLin (.setUncertain (.refl _) v)

/-- A fold of steps of which each writes at most `m` records. -/
theorem Wrote.foldl {α : Type} (f : State → α → State) (hf : ∀ t a, Wrote m tag t (f t a)) (as : List α)
    (h : Wrote n tag s t) : Wrote (n + m * as.length) tag s (as.foldl f t) := by
  induction as generalizing n t with
  | nil => exact h
  | cons a as ih =>
    refine (ih (h.trans (hf t a))).mono (le_of_eq ?_)
    rw [List.length_cons, Nat.mul_succ, Nat.add_assoc, Nat.add_comm m]

end wrote

/-! ## Batches -/

section batches

variable {n tag : Nat} {s t : State}

theorem Wrote.closeBatch (h : Wrote n tag s t) (f : Nat) (r : CloseReason) (x : Option TimeStamp) (y : FillerState) :
    Wrote (n + 1) tag s (t.closeBatch f r tag x y) := by
  unfold State.closeBatch
  dsimp only
  split
  · exact h.mono (Nat.le_succ n)
  · exact (h.setLin (.setFiller (.refl _) _ (modifyLast_length _ _))).write _

/-- An eviction writes nothing and leaves a place free in the ring. -/
theorem State.evict_rings (s : State) (f : Nat) : (s.evict f).1.mgmt = s.mgmt ∧ (s.evict f).1.jrn = s.jrn ∧
    (s.lin.ringsFit → (s.evict f).1.lin.ringsFit ∧ (f < 8 → ((s.evict f).1.lin.filler f).ring.length ≤ 7)) := by
  unfold State.evict
  dsimp only
  split
  case h_1 hr => exact ⟨rfl, rfl, fun h => ⟨h, fun _ => by rw [hr]; exact Nat.zero_le 7⟩⟩
  case h_2 b rest hr =>
    split
    case isTrue hl => exact ⟨rfl, rfl, fun h => ⟨h, fun _ => Nat.le_of_lt_succ hl⟩⟩
    case isFalse =>
      refine ⟨rfl, rfl, fun h => ?_⟩
      have hrest : f < 8 → rest.length ≤ 7 := fun hf => by
        have := h f hf
        rw [hr, List.length_cons] at this
        exact Nat.le_of_succ_le_succ this
      have hset : f < 8 → ((s.lin.setFiller f { s.lin.filler f with ring := rest }).filler f).ring.length ≤ 7 :=
        fun hf => by
          rw [Lineage.setFiller_same hf]
          exact hrest hf
      have hrel := Lineage.SameLengths.releaseAll (.refl (s.lin.setFiller f { s.lin.filler f with ring := rest }))
        (keysOf b.list)
      refine ⟨fun g hg => ?_, fun hf => (hrel f).trans_le (hset hf)⟩
      refine (hrel g).trans_le ?_
      by_cases hfg : f = g
      · subst hfg
        exact (hset hg).trans (Nat.le_succ 7)
      · rw [Lineage.setFiller_ne hfg]
        exact h g hg

/-- The new batch takes the place that the eviction left, and its record is the one record written. -/
theorem Wrote.announce {ev : Option Nat} {f : Nat} (h : Wrote n tag s t) (v : Vessel) (b : Batch)
    (hfree : s.lin.ringsFit → f < 8 → (t.lin.filler f).ring.length ≤ 7) :
    Wrote (n + 1) tag s (((t.sendNotice v b).1.appendBatch f v { b with unsent := (t.sendNotice v b).2 }).write tag
      (.batchOpened { b with unsent := (t.sendNotice v b).2 } ev)) := by
  obtain ⟨x, hx, _, _⟩ := t.sendNotice_spec v b
  rw [hx]
  refine Wrote.write ⟨?_, ?_, fun hs g hg => ?_⟩ _
  · simp [State.appendBatch, h.mgmt]
  · simpa [State.appendBatch] using h.jrn
  · unfold State.appendBatch
    simp only [State.setLin_lin, State.setPort_lin]
    by_cases hfg : f = g
    · subst hfg
      rw [Lineage.setFiller_same hg]
      exact (List.length_append (bs := [_])).trans_le (Nat.succ_le_succ (hfree hs hg))
    · rw [Lineage.setFiller_ne hfg]
      exact h.rings hs g hg

theorem Wrote.openingConditions (h : Wrote n tag s t) (f : Nat) (v : Vessel) (b : Batch) :
    Wrote (n + 3) tag s (t.openingConditions f v b tag) := by
  unfold State.openingConditions
  dsimp only
  have h1 : Wrote (n + 1) tag s (if b.indefinite then t.raise tag (some f) (.codeExhausted f b.serial) else t) :=
    .ite (h.raise _ _) (h.mono (Nat.le_succ n))
  generalize (if b.indefinite then t.raise tag (some f) (.codeExhausted f b.serial) else t) = t1 at h1
  have h2 : Wrote (n + 2) tag s (if b.unsent then t1.raise tag (some f) (.codeUnsent f b.serial v.coderPort) else t1) :=
    .ite (h1.raise _ _) (h1.mono (Nat.le_succ _))
  exact .ite (h2.raise _ _) (h2.mono (Nat.le_succ _))

theorem Wrote.openBatch (h : Wrote n tag s t) (f : Nat) (v : Vessel) (p : Nat) (d : Cat) (c : OpenCause) :
    Wrote (n + 5) tag s (t.openBatch f v p d c tag) := by
  unfold State.openBatch
  dsimp only
  have h1 := h.closeBatch f .superseded none .idle
  generalize t.closeBatch f .superseded tag none .idle = t1 at h1 ⊢
  obtain ⟨hm, hj, hr⟩ := t1.evict_rings f
  have h2 : Wrote (n + 1) tag s (t1.evict f).1 := h1.trans (m := 0) (.of_rings hm hj fun hf => (hr hf).1)
  exact (h2.announce v _ fun hs => (hr (h1.rings hs)).2).openingConditions f v _

theorem Wrote.flowInto (h : Wrote n tag s t) (v : Vessel) : Wrote n tag s (t.flowInto v) :=
  h.setLin (.setFiller (.refl _) _ rfl)

end batches

/-! ## The transfer -/

section transfer

variable {n tag : Nat} {s t : State}

theorem Wrote.prepareDst (h : Wrote n tag s t) (dst : Nat) (d : Bool) : Wrote (n + 5) tag s (t.prepareDst dst tag d) := by
  have h5 : Wrote (n + 5) tag s t := h.mono (Nat.le_add_right n 5)
  unfold State.prepareDst
  dsimp only
  split
  · exact .ite (h5.setLin (.setVessel (.refl _) _ _)) h5
  · exact .ite (.ite ((h.openBatch _ _ _ _ _).setUncertain _) (h.openBatch _ _ _ _ _)) h5
  · exact h5
  · exact h5

theorem Wrote.draw (h : Wrote n tag s t) (src dst v : Nat) : Wrote (n + 1) tag s (t.draw src dst v tag).st := by
  have h1 : Wrote (n + 1) tag s t := h.mono (Nat.le_succ n)
  unfold State.draw
  split
  · unfold State.drawBay
    dsimp only
    exact .ite (h1.setLin (.setRing (.refl _) _ _))
      (((h.setLin (.setRing (.refl _) _ _)).setUncertain _).raise _ _)
  · unfold State.drawStore State.drawUnseeded
    dsimp only
    split
    · exact .ite ((h.setUncertain _).raise _ _) ((h1.setUncertain _).trans (m := 0) (.of_rings rfl rfl id))
    · split
      · exact h1.setLin (.setVessel (.refl _) _ _)
      · exact ((h.setLin (.setVessel (.refl _) _ _)).setUncertain _).raise _ _

theorem Wrote.formBlend (h : Wrote n tag s t) (dst : Nat) (c : Cat) (ms : List Share) :
    Wrote (n + 1) tag s (t.formBlend dst c ms tag).1 := by
  unfold State.formBlend
  dsimp only
  refine Wrote.write (.setLin h ?_) _
  exact .of_fillers rfl

theorem Wrote.truncate (h : Wrote n tag s t) (dst : Nat) (xs : List Share) :
    Wrote (n + 2) tag s (t.truncate dst xs tag).1 :=
  ((h.setUncertain _).write _).raise _ _

theorem Wrote.stepB (mg : Merged) (h : Wrote n tag s mg.st) (dst : Nat) (b xs ps : List Share) (c : Cat) :
    Wrote (n + 2) tag s (mg.stepB dst b xs ps c tag).st := by
  unfold Merged.stepB
  split
  · exact h.truncate _ _
  · exact (h.formBlend _ _ _).mono (Nat.le_succ _)

theorem Wrote.mergeList (h : Wrote n tag s t) (dst : Nat) (pre ps : List Share) (c : Cat) :
    Wrote (n + 3) tag s (t.mergeList dst pre ps c tag).st := by
  unfold State.mergeList
  dsimp only
  split
  · exact h.mono (Nat.le_add_right n 3)
  · split
    · exact (Wrote.stepB _ h _ _ _ _ _).mono (Nat.le_succ _)
    · split
      · exact (h.truncate _ _).mono (Nat.le_succ _)
      · split
        · exact (h.formBlend _ _ _).mono (Nat.le_add_right _ 2)
        · exact Wrote.stepB _ (h.formBlend _ _ _) _ _ _ _ _

theorem Wrote.mergeCat (h : Wrote n tag s t) (dst : Nat) (c : Cat) : Wrote (n + 1) tag s (t.mergeCat dst c tag) := by
  have h0 := fun x => h.setLin (Lineage.SameLengths.setCat (.refl t.lin) dst x)
  unfold State.mergeCat
  dsimp only
  split
  · exact .ite ((h0 _).mono (Nat.le_succ n)) ((h0 _).raise _ _)
  · exact (h0 _).mono (Nat.le_succ n)

theorem Wrote.ceilingRaise (h : Wrote n tag s t) (dst d : Nat) : Wrote (n + 1) tag s (t.ceilingRaise dst d tag) :=
  .ite (h.mono (Nat.le_succ n)) ((h.setUncertain _).raise _ _)

theorem Wrote.capacityRaise (h : Wrote n tag s t) (dst b d : Nat) :
    Wrote (n + 1) tag s (t.capacityRaise dst b d tag) :=
  .ite (h.raise _ _) (h.mono (Nat.le_succ n))

/-- A transfer writes at most 12 records: 5 of a batch it opens, the draw's, the ceiling's, 3 of the merge, the
category's and the capacity's. -/
theorem Wrote.transfer (h : Wrote n tag s t) (src dst v : Nat) (d : Bool) :
    Wrote (n + 12) tag s (t.transfer src dst v tag d).st := by
  unfold State.transfer
  dsimp only
  have h1 := (h.prepareDst dst d).draw src dst v
  generalize (t.prepareDst dst tag d).draw src dst v tag = dr at h1
  have h2 := h1.ceilingRaise dst (ceilingCut (total (dr.st.lin.listOf (dr.st.lin.vessel dst))) dr.portions).2
  generalize ceilingCut (total (dr.st.lin.listOf (dr.st.lin.vessel dst))) dr.portions = cut at h2
  have h3 := (h2.mergeList dst (dr.st.lin.listOf (dr.st.lin.vessel dst)) cut.1 dr.incoming)
  generalize (dr.st.ceilingRaise dst cut.2 tag).mergeList dst (dr.st.lin.listOf (dr.st.lin.vessel dst)) cut.1
    dr.incoming tag = mg at h3
  have h4 := h3.setLin (.setList (.refl _) dst mg.final)
  have h5 : Wrote (n + 11) tag s (if cut.1.isEmpty then mg.st.setLin (mg.st.lin.setList dst mg.final) else
      (mg.st.setLin (mg.st.lin.setList dst mg.final)).mergeCat dst dr.incoming tag) :=
    .ite (h4.mono (Nat.le_succ _)) (h4.mergeCat _ _)
  generalize (if cut.1.isEmpty then mg.st.setLin (mg.st.lin.setList dst mg.final) else
      (mg.st.setLin (mg.st.lin.setList dst mg.final)).mergeCat dst dr.incoming tag) = t5 at h5
  have h6 : Wrote (n + 11) tag s (if !cut.1.isEmpty && t5.lin.uncertainOf (t5.lin.vessel src) then
      t5.setUncertain dst else t5) := .ite (h5.setUncertain _) h5
  generalize (if !cut.1.isEmpty && t5.lin.uncertainOf (t5.lin.vessel src) then t5.setUncertain dst else t5) = t6 at h6
  have h7 := h6.capacityRaise dst (total (dr.st.lin.listOf (dr.st.lin.vessel dst))) cut.2
  generalize t6.capacityRaise dst (total (dr.st.lin.listOf (dr.st.lin.vessel dst))) cut.2 tag = t7 at h7
  exact (Wrote.ite (h7.flowInto _) h7).setLin (.rederive (.rederive (.releaseAll (.addRefs (.refl _) _) _) _) _)

end transfer

/-! ## Meters, valves and the switch of banks -/

section meters

variable {n tag : Nat} {s t : State}

theorem Wrote.updMeter (h : Wrote n tag s t) (m : Nat) (f : Meter → Meter) :
    Wrote n tag s (t.setLin (t.lin.updMeter m f)) := h.setLin (.of_fillers rfl)

theorem Wrote.closeSegment (h : Wrote n tag s t) (m : Nat) (r : SegReason) :
    Wrote (n + 1) tag s (t.closeSegment m r tag) :=
  .ite (h.mono (Nat.le_succ n)) (h.write _)

theorem Wrote.resolveMeter (s : State) (m : Nat) : Wrote 1 tag s (s.resolveMeter tag m) := by
  unfold State.resolveMeter
  dsimp only
  exact .ite ((Wrote.refl s).updMeter _ _) ((((Wrote.refl s).closeSegment (n := 0) m .route).updMeter _ _).updMeter _ _)

theorem State.opValve_wrote (s : State) (tag c : Nat) (v : Word16) : Wrote 48 tag s (s.opValve tag c v) := by
  unfold State.opValve
  dsimp only
  have h0 : Wrote 0 tag s (s.setLin { s.lin with clusters := vset s.lin.clusters c ⟨v, true⟩ }) :=
    (Wrote.refl s).setLin (.of_fillers rfl)
  generalize s.setLin { s.lin with clusters := vset s.lin.clusters c ⟨v, true⟩ } = s1 at h0
  refine (Wrote.foldl (m := 1) (fun t m => t.resolveMeter tag m) Wrote.resolveMeter _ h0).mono ?_
  rw [Nat.zero_add, Nat.one_mul]
  exact (List.length_filter_le _ _).trans (List.length_range (n := 48)).le

theorem State.opSwitchBank_wrote (s : State) (tag : Nat) : Wrote 49 tag s (s.opSwitchBank tag) := by
  rw [State.opSwitchBank_eq]
  refine ⟨rfl, ⟨_, rfl, ?_⟩, ?_⟩
  · rw [List.length_append, State.switchRecords, List.length_map]
    exact Nat.succ_le_succ ((List.length_filter_le _ _).trans (List.length_range (n := 48)).le)
  · rw [Lineage.resolveOpen_eq]
    exact (Lineage.SameLengths.of_fillers rfl).ringsFit

theorem Wrote.countSegment (h : Wrote n tag s t) (m v : Nat) : Wrote (n + 1) tag s (t.countSegment m v tag) :=
  Wrote.updMeter (.ite ((h.closeSegment m .limit).updMeter _ _) (h.mono (Nat.le_succ n))) _ _

theorem Wrote.flagSegment (h : Wrote n tag s t) (m : Nat) (f : SegFlags → SegFlags) :
    Wrote n tag s (t.flagSegment m f) := h.updMeter _ _

theorem Wrote.flowJump (h : Wrote n tag s t) (m v : Nat) (c : FlowCase) :
    Wrote (n + 1) tag s (t.flowJump m v tag c) := by
  unfold State.flowJump
  dsimp only
  refine Wrote.raise ?_ _ _
  split
  · exact (h.setUncertain _).setUncertain _
  · exact h
  · exact h
  · exact h

theorem Wrote.flowCap (h : Wrote n tag s t) (m a b v : Nat) : Wrote (n + 1) tag s (t.flowCap m a b v tag) :=
  .ite ((((h.flagSegment m _).setUncertain _).setUncertain _).raise _ _) (h.mono (Nat.le_succ n))

theorem Wrote.flowByCase (h : Wrote n tag s t) (m v : Nat) (j : Bool) (c : FlowCase) :
    Wrote (n + 13) tag s (t.flowByCase m v tag j c) := by
  cases c with
  | unrouted =>
    exact (Wrote.raise (.setLin (h.flagSegment m _) (.setUncertainAll (.refl _) _)) _ _).mono (by omega)
  | loop => exact (h.flagSegment m (fun f => { f with sameVessel := true })).mono (Nat.le_add_right n 13)
  | cleaning a b =>
    exact (Wrote.raise (.ite (h.flagSegment m _) ((h.flagSegment m _).setUncertain _)) _ _).mono (by omega)
  | routed a b => exact (h.flowCap m a b v).transfer _ _ _ _

theorem Wrote.flow (h : Wrote n tag s t) (m v : Nat) : Wrote (n + 15) tag s (t.flow m v tag) := by
  unfold State.flow
  dsimp only
  refine Wrote.flowByCase (n := n + 2) (.ite (.flagSegment ?_ m _) ?_) _ _ _ _
  all_goals exact Wrote.countSegment (.ite (h.flowJump m v _) (h.mono (Nat.le_succ n))) _ _

theorem State.opMeter_wrote (s : State) (tag m x : Nat) : Wrote 15 tag s (s.opMeter tag m x) := by
  have h0 := fun y => (Wrote.refl (n := 0) (tag := tag) s).setLin (l := s.lin.setMeter m y) (.of_fillers rfl)
  unfold State.opMeter
  dsimp only
  split
  · exact .refl s
  · split
    · exact (h0 _).mono (Nat.zero_le _)
    · exact ((h0 _).raise _ _).mono (by omega)
    · exact .ite ((h0 _).mono (Nat.zero_le _)) ((h0 _).flow _ _)

end meters

/-! ## Bays, vessels, batches and marks -/

section operations

variable {n tag : Nat} {s t : State} (s tag)

theorem State.opManifest_wrote (w : TimeStamp) (i : ManifestItem) : Wrote 1 tag s (s.opManifest tag w i) := by
  have hr : ∀ c, Wrote 1 tag s (s.raise tag none c) := fun c => (Wrote.refl (n := 0) s).raise _ c
  have ha : ∀ v k c, Wrote 1 tag s (s.admitOrRefuse w v k i c tag) := by
    intro v k c
    refine .ite (hr _) (.ite (hr _) ?_)
    unfold State.takeIn State.createColl
    dsimp only
    refine .setLin (.write (n := 0) (.setLin (.refl s) ?_) _) (.rederive (.setRing (.refl _) _ _) _)
    exact .of_fillers rfl
  unfold State.opManifest
  dsimp only
  split
  · exact hr _
  · refine .ite (hr _) (.ite (hr _) ?_)
    split
    · exact .ite (hr _) (ha _ _ _)
    · split
      · exact hr _
      · exact ha _ _ _

theorem State.raiseUnknown_wrote (v : Option Nat) (b x c : Nat) (y : UnknownCause) :
    Wrote 1 tag s (s.raiseUnknown tag v b x c y) := (Wrote.refl (n := 0) s).raise _ _

theorem State.opCompSelect_wrote (b x c : Nat) : Wrote 1 tag s (s.opCompSelect tag b x c) := by
  unfold State.opCompSelect
  dsimp only
  split
  · exact s.raiseUnknown_wrote tag _ _ _ _ _
  · split
    · exact s.raiseUnknown_wrote tag _ _ _ _ _
    · exact .ite (.refl s) ((Wrote.refl s).setLin (.setRing (.refl _) _ _))

variable {s tag} in
theorem Wrote.closeSlot (h : Wrote n tag s t) (v b : Nat) (r : SlotReason) (k : Nat) :
    Wrote (n + 1) tag s (t.closeSlot v b r tag k) :=
  (h.write _).setLin (.rederive (.setRing (.releaseAll (.refl _) _) _ _) _)

theorem State.finishSlot_wrote (v b : Nat) (r : SlotReason) (k : Nat) :
    Wrote 1 tag s (s.finishSlot v b r tag k) :=
  ((Wrote.refl (n := 0) s).closeSlot _ _ _ _).setLin (.setRing (.refl _) _ _)

theorem State.opCompDone_wrote (b : Nat) : Wrote 1 tag s (s.opCompDone tag b) := by
  unfold State.opCompDone
  split
  · exact s.raiseUnknown_wrote tag _ _ _ _ _
  · split
    · exact s.raiseUnknown_wrote tag _ _ _ _ _
    · exact s.finishSlot_wrote tag _ _ _ _

theorem State.opCompReject_wrote (b x c : Nat) : Wrote 1 tag s (s.opCompReject tag b x c) := by
  unfold State.opCompReject
  dsimp only
  split
  · exact s.raiseUnknown_wrote tag _ _ _ _ _
  · split
    · exact s.raiseUnknown_wrote tag _ _ _ _ _
    · exact .ite (s.finishSlot_wrote tag _ _ _ _) ((Wrote.refl (n := 0) s).closeSlot _ _ _ _)

theorem State.bayCipStart_wrote (v : Nat) : Wrote 7 tag s (s.bayCipStart tag v) := by
  unfold State.bayCipStart
  dsimp only
  refine .ite (((Wrote.refl (n := 0) s).write _).mono (by omega)) (.write (n := 6) (.setLin ?_ ?_) _)
  · refine (Wrote.foldl (n := 0) (m := 1) (fun t k => t.closeSlot v _ .cleaned tag k)
      (fun t k => (Wrote.refl (n := 0) t).closeSlot _ _ _ _) _ (.refl s)).mono ?_
    rw [Nat.zero_add, Nat.one_mul]
    exact (List.length_filter_le _ _).trans (List.length_range (n := 6)).le
  · exact .setVessel (.setRing (.refl _) _ _) _ _

theorem State.opCipStart_wrote (v : Nat) : Wrote 7 tag s (s.opCipStart tag v) := by
  have hw : ∀ p, Wrote 1 tag s (s.write tag p) := fun p => (Wrote.refl (n := 0) s).write p
  unfold State.opCipStart
  split
  · exact (hw _).mono (by omega)
  · refine Wrote.mono (n := 1) (.ite (hw _) ((hw _).setLin ?_)) (by omega)
    exact .setVessel (.releaseAll (.refl _) _) _ _
  · exact s.bayCipStart_wrote tag v
  · unfold State.fillerCipStart
    dsimp only
    split
    · exact (hw _).mono (by omega)
    · exact Wrote.mono (n := 1) (.write (.setLin (.refl s) (.setState (.refl _) _ _)) _) (by omega)
    · exact Wrote.mono (n := 2) (.write (.closeBatch (.refl s) _ _ _ _) _) (by omega)

theorem State.opCipEnd_wrote (v : Nat) : Wrote 1 tag s (s.opCipEnd tag v) := by
  have hw : ∀ p, Wrote 1 tag s (s.write tag p) := fun p => (Wrote.refl (n := 0) s).write p
  unfold State.opCipEnd
  split
  · exact hw _
  · exact .ite (hw _) (.write (n := 0) (.setLin (.refl s) (.setVessel (.refl _) _ _)) _)
  · exact .ite (.write (n := 0) (.setLin (.refl s) (.setVessel (.setRing (.refl _) _ _) _ _)) _) (hw _)
  · exact .ite (.write (n := 0) (.setLin (.refl s) (.setState (.refl _) _ _)) _) (hw _)

theorem State.opVesselWrite_wrote (w : WriteArgs) : Wrote 1 tag s (s.opVesselWrite tag w) :=
  .ite (.write (n := 0) (.setLin (.refl s) (.applyWrite (.refl _) w)) _) ((Wrote.refl (n := 0) s).write _)

theorem State.opManual_wrote (a b v : Nat) : Wrote 12 tag s (s.opManual tag a b v).1 ∧
    (s.opManual tag a b v).2.length ≤ 1 := by
  unfold State.opManual
  dsimp only
  split
  · exact ⟨(Wrote.refl (n := 0) s).transfer _ _ _ _, Nat.le_refl 1⟩
  · exact ⟨((Wrote.refl (n := 0) s).write _).mono (by omega), Nat.zero_le 1⟩

theorem State.opBatchOpen_wrote (c : Bool) (f p k : Nat) : Wrote 5 tag s (s.opBatchOpen tag c f p k) := by
  have hw : ∀ p, Wrote 5 tag s (s.write tag p) := fun p => ((Wrote.refl (n := 0) s).write p).mono (by omega)
  unfold State.opBatchOpen
  split
  · exact .ite (hw _) ((Wrote.refl (n := 0) s).openBatch _ _ _ _ _)
  · exact hw _

theorem State.opBatchClose_wrote (f : Nat) : Wrote 1 tag s (s.opBatchClose tag f) := by
  unfold State.opBatchClose
  split
  · exact (Wrote.refl (n := 0) s).write _
  · exact .ite ((Wrote.refl (n := 0) s).closeBatch _ _ _ _) ((Wrote.refl (n := 0) s).write _)

theorem State.opIdleClose_wrote (f k : Nat) (x : TimeStamp) : Wrote 1 tag s (s.opIdleClose tag f k x) :=
  .ite ((Wrote.refl (n := 0) s).closeBatch _ _ _ _) (.refl s)

theorem State.opCarton_wrote (f k : Nat) : Wrote 0 tag s (s.opCarton f k) := by
  unfold State.opCarton
  split
  · exact .refl s
  · exact (Wrote.refl s).setLin (.setFiller (.refl _) _ (Filler.modifyOpen_length _ _))

theorem State.opDispatch_wrote (c : List Byte) (k x : Nat) : Wrote 3 tag s (s.opDispatch tag c k x) := by
  unfold State.opDispatch
  split
  case h_1 f b _ =>
    unfold State.dispatchResolved
    dsimp only
    have h1 : Wrote 1 tag s ((s.setLin (s.lin.setFiller f ((s.lin.filler f).updBatch b.serial
        (fun y => { y with dispatched := grow32 b.dispatched k })))).write tag
        (.dispatched c k x b.serial f b.produced (grow32 b.dispatched k))) :=
      .write (n := 0) (.setLin (.refl s) (.setFiller (.refl _) _ (List.length_map _))) _
    generalize ((s.setLin (s.lin.setFiller f ((s.lin.filler f).updBatch b.serial
        (fun y => { y with dispatched := grow32 b.dispatched k })))).write tag
        (.dispatched c k x b.serial f b.produced (grow32 b.dispatched k))) = s1 at h1
    have h2 : Wrote 2 tag s (if b.produced < grow32 b.dispatched k then
        s1.raise tag none (.dispatchExcess b.serial b.produced (grow32 b.dispatched k)) else s1) :=
      .ite (h1.raise _ _) (h1.mono (by omega))
    exact .ite (h2.raise _ _) (h2.mono (by omega))
  case h_2 => exact Wrote.mono (n := 2) (.raise (.write (.refl s) _) _ _) (by omega)

theorem State.opGap_wrote (k : Nat) : Wrote 1 tag s (s.opGap tag k) :=
  .raise (n := 0) (.setLin (.refl s) (.setUncertainAll (.refl _) _)) _ _

theorem State.opHoldRelease_wrote (a : Nat) : Wrote 1 tag s (s.opHoldRelease tag a).1 := by
  unfold State.opHoldRelease
  split
  · exact .of_rings rfl rfl id
  · exact (Wrote.refl (n := 0) s).write _

/-- A marking command writes its own record and one for each of at most 64 batches. -/
theorem State.opMark_wrote (hs : s.lin.ringsFit) (r : Bool) (a : MarkArg) : Wrote 65 tag s (s.opMark tag r a) := by
  unfold State.opMark
  dsimp only
  split
  · unfold State.writeFlags State.writeSweep
    refine (Wrote.foldl (n := 1) (m := 1) _ (fun t b => (Wrote.refl (n := 0) t).write _) _
      (.write (n := 0) (.setLin (.refl s) ?_) _)).mono ?_
    · refine .rederiveVessels (.rederiveBatches (.of_fillers ?_))
      rw [Lineage.sweep_fillers, Lineage.marks_fillers]
    · have hl := Lineage.SameLengths.of_fillers (l := s.lin)
        (k := ((s.lin.marks r a).lin.sweep r (s.lin.marks r a).direct).1)
        (by rw [Lineage.sweep_fillers, Lineage.marks_fillers])
      have hb := (hl.ringsFit hs).allBatches_le
      rw [Nat.one_mul, Nat.add_comm]
      refine Nat.succ_le_succ (le_trans ?_ hb)
      unfold batchChanges
      rw [List.length_map]
      refine (List.length_filter_le _ _).trans ?_
      rw [List.length_zip]
      exact Nat.min_le_left _ _
  · exact ((Wrote.refl (n := 0) s).write _).mono (by omega)

/-- Every operation writes at most 65 records, and one more behind the holds' at most. -/
theorem TakenEntry.operation_wrote (e : TakenEntry) (hs : s.lin.ringsFit) :
    Wrote 65 e.tag s (e.operation s).st ∧ (e.operation s).after.length ≤ 1 := by
  obtain ⟨⟨v, a, tag, c⟩, w⟩ := e
  cases v with
  | meter m x => exact ⟨(s.opMeter_wrote tag m x).mono (by omega), Nat.zero_le 1⟩
  | valve k x => exact ⟨(s.opValve_wrote tag k x).mono (by omega), Nat.zero_le 1⟩
  | manifest i => exact ⟨(s.opManifest_wrote tag w i).mono (by omega), Nat.zero_le 1⟩
  | compSelect b x k => exact ⟨(s.opCompSelect_wrote tag b x k).mono (by omega), Nat.zero_le 1⟩
  | compDone b => exact ⟨(s.opCompDone_wrote tag b).mono (by omega), Nat.zero_le 1⟩
  | compReject b x k => exact ⟨(s.opCompReject_wrote tag b x k).mono (by omega), Nat.zero_le 1⟩
  | cipStart v => exact ⟨(s.opCipStart_wrote tag v).mono (by omega), Nat.zero_le 1⟩
  | cipEnd v => exact ⟨(s.opCipEnd_wrote tag v).mono (by omega), Nat.zero_le 1⟩
  | batchOpen f p k => exact ⟨(s.opBatchOpen_wrote tag c f p k).mono (by omega), Nat.zero_le 1⟩
  | batchClose f => exact ⟨(s.opBatchClose_wrote tag f).mono (by omega), Nat.zero_le 1⟩
  | carton f k => exact ⟨(s.opCarton_wrote tag f k).mono (by omega), Nat.zero_le 1⟩
  | dispatch x k y => exact ⟨(s.opDispatch_wrote tag x k y).mono (by omega), Nat.zero_le 1⟩
  | idleClose f k x => exact ⟨(s.opIdleClose_wrote tag f k x).mono (by omega), Nat.zero_le 1⟩
  | gap k => exact ⟨(s.opGap_wrote tag k).mono (by omega), Nat.zero_le 1⟩
  | switchBank =>
    have h : Wrote 65 tag s (s.opSwitchBank tag) := Wrote.mono (s.opSwitchBank_wrote tag) (Nat.le_add_right 49 16)
    simp only [TakenEntry.operation]
    exact ⟨h, Nat.zero_le 1⟩
  | vesselWrite x => exact ⟨(s.opVesselWrite_wrote tag x).mono (by omega), Nat.zero_le 1⟩
  | manualTransfer x y z => exact ⟨(s.opManual_wrote tag x y z).1.mono (by omega), (s.opManual_wrote tag x y z).2⟩
  | suspectKey k => exact ⟨s.opMark_wrote tag hs false (.key k), Nat.zero_le 1⟩
  | suspectSample k => exact ⟨s.opMark_wrote tag hs false (.sample k), Nat.zero_le 1⟩
  | suspectFarm k => exact ⟨s.opMark_wrote tag hs false (.farm k), Nat.zero_le 1⟩
  | releaseKey k => exact ⟨s.opMark_wrote tag hs true (.key k), Nat.zero_le 1⟩
  | releaseSample k => exact ⟨s.opMark_wrote tag hs true (.sample k), Nat.zero_le 1⟩
  | releaseFarm k => exact ⟨s.opMark_wrote tag hs true (.farm k), Nat.zero_le 1⟩
  | holdRelease x => exact ⟨(s.opHoldRelease_wrote tag x).mono (by omega), Nat.zero_le 1⟩

/-- With the HOLD records of its end an operation writes at most 80 records, all published. -/
theorem TakenEntry.close_wrote (e : TakenEntry) (hs : s.lin.ringsFit) : ∃ ps,
    ((e.operation s).close e.tag).jrn = (s.jrn.writeAll s.now e.tag ps).publish ∧ ps.length ≤ 80 := by
  obtain ⟨ho, ha⟩ := e.operation_wrote s hs
  obtain ⟨ps, hps, hn⟩ := ho.jrn
  obtain ⟨sh, hds, h9, hc⟩ := (e.operation s).close_eq e.tag
  have hnow : (e.operation s).st.now = s.now := congrArg Mgmt.clock ho.mgmt
  refine ⟨ps ++ (hds ++ (e.operation s).after), ?_, ?_⟩
  · rw [hc]
    dsimp only
    rw [hnow, hps, ← Journal.writeAll_append]
  · rw [List.length_append, List.length_append]
    omega

end operations

/-! ## A clear -/

section clear

theorem Lineage.ringsFit.cleared {l : Lineage} (now : TimeStamp) : (l.cleared now).ringsFit := fun f hf => by
  rw [Lineage.cleared_filler _ _ hf]
  exact Nat.zero_le 8

/-- A clear writes at most 18 records: one for each filler, each hold, and its own. -/
theorem State.clearRecords_length (s : State) : s.clearRecords.length ≤ 18 := by
  have hb : (s.closings (List.range 8)).length ≤ 8 :=
    (List.length_filterMap_le _ _).trans (List.length_range (n := 8)).le
  have hh : s.hold.clearings.length ≤ 9 := by
    rw [HoldUnit.clearings, List.length_map]
    exact (List.length_filter_le _ _).trans (List.length_range (n := 9)).le
  rw [State.clearRecords, List.length_append, List.length_append]
  exact Nat.add_le_add (Nat.add_le_add hb hh) (Nat.le_refl 1)

end clear

/-- Settles O40: the records of an operation counted along its shared operations, with nine HOLD records; those of a
clear counted in its equation. -/
theorem operationsWriteAtMostEightyRecords : Obligations.OperationsWriteAtMostEightyRecords := by
  intro s hs
  constructor
  · intro e ht
    obtain ⟨ps, hj, hn⟩ := e.close_wrote s hs
    refine ⟨_, ps, exec_row ht, ?_, hn⟩
    rw [OpEnd.finish_eq_settle, (State.settle_frame _).jrn]
    exact hj
  · intro w rest hr hi hw hc hj
    refine ⟨_, s.clearRecords, congrArg Host.Outcome.next (State.applyClear_eq hr hi hw hc hj), ?_,
      s.clearRecords_length⟩
    rw [State.setPort_jrn, State.setWaiting_jrn, State.clearOperation_eq]
    rfl

/-! ## The journal within its ring -/

section held

/-- A LOAD_VESSEL leaves every filler record, or clears the one it configures. -/
theorem Lineage.applyLoadVessel_fillers (l : Lineage) (v : Nat) (cfg : VesselCfg) :
    (l.applyLoadVessel v cfg).fillers = l.fillers ∨
      ∃ f, (l.applyLoadVessel v cfg).fillers = (l.setFiller f {}).fillers := by
  have hf : (l.freshParts cfg).fillers = l.fillers ∨ ∃ f, (l.freshParts cfg).fillers = (l.setFiller f {}).fillers := by
    cases cfg with
    | filler i n c p t a => exact .inr ⟨i, rfl⟩
    | _ => exact .inl rfl
  simp only [Lineage.applyLoadVessel]
  split
  · split
    · exact hf
    · obtain ⟨a, b, hs, _⟩ := Lineage.spoilInactive_eq
        ((l.freshParts cfg).setVessel v ((freshVessel cfg).configure cfg)) v cfg.vesselKind
      rw [hs]
      exact hf
  · exact .inl rfl

theorem ringsFit_kept : LinKept Lineage.ringsFit where
  reset := fun f _ => by
    rw [reset_filler]
    exact Nat.zero_le 8
  fillers := fun l xs hx h f hf => by
    have hr := (hx f hf).2
    unfold Lineage.filler at hr ⊢
    rw [hr]
    exact h f hf
  tables := fun _ _ _ _ _ h => h
  meter := fun _ _ _ _ _ _ _ h => h
  route := fun l r _ h => Lineage.SameLengths.ringsFit (.of_fillers (by unfold Lineage.setEntry; split <;> rfl)) h
  vessel := fun l v cfg _ h => by
    rcases l.applyLoadVessel_fillers v cfg with he | ⟨g, he⟩
    · exact (Lineage.SameLengths.of_fillers he).ringsFit h
    · refine (Lineage.SameLengths.of_fillers he).ringsFit fun f hf => ?_
      by_cases hg : g = f
      · subst hg
        rw [Lineage.setFiller_same hf]
        exact Nat.zero_le 8
      · rw [Lineage.setFiller_ne hg]
        exact h f hf
  clear := fun _ now _ => Lineage.ringsFit.cleared now
  operation := fun s e h => (e.operation_wrote s h).1.rings h

theorem Journal.writeAll_records_length (j : Journal) (t : TimeStamp) (k : Nat) (ps : List Payload) :
    (j.writeAll t k ps).records.length = j.records.length + ps.length := by
  induction ps generalizing j with
  | nil => rfl
  | cons p ps ih =>
    rw [Journal.writeAll_cons, ih, Journal.write, List.length_append, List.length_cons, List.length_nil, List.length_cons]
    omega

/-- The free places of an ordered journal within its ring are what its records leave. -/
theorem Journal.ordered.free {j : Journal} (h : j.ordered) (hl : j.records.length ≤ 4096) :
    j.free + j.records.length = 4096 := by
  obtain ⟨_, hw, _⟩ := h
  have hu : j.unreleased = j.records.length := by
    rw [Journal.unreleased, hw, add_sub_cancel_left, BitVec.toNat_ofNat]
    exact Nat.mod_eq_of_lt (by omega)
  rw [Journal.free, hu]
  exact Nat.sub_add_cancel hl

/-- A settle that takes an entry found the places that the operation needs. -/
theorem State.settle_room {s : State} (h : s.settle.inFlight ≠ none) : s.inFlight ≠ none ∨ 80 ≤ s.jrn.free := by
  unfold State.settle at h
  split at h
  · rename_i hm
    simp only [State.mayTake, Bool.and_eq_true, decide_eq_true_eq] at hm
    exact .inr hm.2
  · exact .inl h

/-- A move that leaves the journal and the entry in flight keeps the journal within its ring. -/
theorem JournalSound.of_same {s t : State} (hs : JournalSound s) (hj : t.jrn = s.jrn) (hi : t.inFlight = s.inFlight)
    (hr : t.lin.ringsFit) : JournalSound t :=
  ⟨hj ▸ hs.ordered, hj ▸ hs.held, fun h => hj ▸ hs.room (hi ▸ h), hr⟩

theorem Move.journalSound {s t : State} (h : Move s t) (hs : JournalSound s) : JournalSound t := by
  have hr : t.lin.ringsFit := ringsFit_kept.move h hs.rings
  have ho : t.jrn.ordered := h.journalOrdered hs.ordered
  have hfree := hs.ordered.free hs.held
  cases h with
  | reset => exact ⟨ho, Nat.zero_le _, fun h => absurd rfl h, hr⟩
  | advance => exact hs.of_same (by rw [State.advance_eq]) (by rw [State.advance_eq]) hr
  | port p x => exact hs.of_same (State.setPort_jrn _ _ _) (State.setPort_inFlight _ _ _) hr
  | wait w hw =>
    exact hs.of_same (by rw [State.setWaiting_jrn, State.jrn_reserve])
      (by rw [State.setWaiting_inFlight, State.reserve_eq, State.setPort_inFlight]) hr
  | answered w rest r hw =>
    exact hs.of_same (by rw [State.answer_eq, State.setPort_jrn]; rfl)
      (by rw [State.answer_eq, State.setPort_inFlight]; rfl) hr
  | take =>
    have hj : s.settle.jrn = s.jrn := s.settle_frame.jrn
    refine ⟨ho, hj ▸ hs.held, fun h => hj ▸ ?_, hr⟩
    rcases State.settle_room h with hi | hf
    · exact hs.room hi
    · change s.jrn.records.length + 80 ≤ 4096
      omega
  | between tag b hi =>
    have hi' : (s.applyBetween tag b).1.inFlight = s.inFlight := (s.applyBetween_frame tag b).2.2
    have he := s.applyBetween_effect tag b
    generalize (s.applyBetween tag b).1 = u at he hi' hr ho ⊢
    cases he with
    | clock x hx hj =>
      refine ⟨ho, ?_, fun h => absurd (hi'.trans hi) h, hr⟩
      rw [State.applyClock_eq]
      change (s.jrn.records ++ [_]).length ≤ 4096
      rw [List.length_append, List.length_singleton]
      omega
    | nothing | vessel | meter | route | tables | hold | plant => exact hs.of_same rfl hi' hr
  | released n hn =>
    have hl : (s.jrn.release n).records.length ≤ s.jrn.records.length :=
      (List.length_drop ..).trans_le (Nat.sub_le _ _)
    exact ⟨ho, hl.trans hs.held, fun h => (Nat.add_le_add_right hl _).trans (hs.room h), hr⟩
  | clear tag hi hj =>
    refine ⟨ho, ?_, fun h => absurd ?_ h, hr⟩
    · rw [State.clearOperation_eq]
      have hn := s.clearRecords_length
      change (s.jrn.writeAll s.now tag s.clearRecords).records.length ≤ 4096
      rw [Journal.writeAll_records_length]
      omega
    · rw [State.clearOperation_eq]
      exact hi
  | operation e he =>
    obtain ⟨ps, hj, hn⟩ := e.close_wrote s hs.rings
    refine ⟨ho, ?_, fun h => absurd (OpEnd.close_inFlight _ _) h, hr⟩
    have hroom : s.jrn.records.length + 80 ≤ 4096 := hs.room (by rw [he]; nofun)
    rw [hj]
    change (s.jrn.writeAll s.now e.tag ps).records.length ≤ 4096
    rw [Journal.writeAll_records_length]
    omega
  | pending | release | settings | decoder | lose | join | combine | refuse | timer => exact hs.of_same rfl rfl hr

end held

/-- Settles O39: an entry is taken with 80 places free, and writes no more. -/
theorem everyStepKeepsTheJournalWithinItsRing : Obligations.EveryStepKeepsTheJournalWithinItsRing :=
  fun _ _ hs h => step_keeps (P := JournalSound) (fun _ _ => Move.journalSound) h hs

end Sys2Proof.Machine

/-! Operations, holds, raises, pins and the queue: O25 to O28, O24, O37. -/

namespace Sys2Proof.Machine

open Sys2Proof

/-! ## The frame of an operation (O25), and the holds after it (O26) -/

/-- Only HOLD_RELEASE names holds for its evaluation. -/
theorem TakenEntry.operation_released (e : TakenEntry) (s : State) :
    (e.operation s).released = [] ∨ ∃ a, e.val = .holdRelease a := by
  obtain ⟨⟨v, a, t, c⟩, w⟩ := e
  cases v with
  | holdRelease x => exact .inr ⟨x, rfl⟩
  | _ => exact .inl rfl

/-- Settles O25: every operation keeps its frame, and its end adds the HOLD records. -/
theorem everyOperationCompletesWithinItsFrame : Obligations.EveryOperationCompletesWithinItsFrame := by
  intro s e ht
  obtain ⟨t, ps, hx, hr⟩ := exec_row_result ht
  have hf := e.operation_frame s
  exact ⟨t, _, _, ps, _, _, hx, hr, e.operation_released s, hf.policy, hf.outMap, hf.suspectOn, hf.uncertainOn,
    hf.mismatchOn, hf.catTab, hf.bankA, hf.bankB⟩

theorem HoldUnit.causesFor_any (h : HoldUnit) (b : Batch) : (h.causesFor (some b)).any = true ↔
    (h.suspectOn = true ∧ b.suspect = true) ∨ (h.uncertainOn = true ∧ b.uncertain = true) ∨
      (h.mismatchOn = true ∧ b.mismatch = true) := by
  simp only [HoldUnit.causesFor, Causes.any, Bool.or_eq_true, Bool.and_eq_true, or_assoc]

theorem State.holdBatch_iff (s : State) (i : Nat) (b : Batch) :
    s.holdBatch i = some b ↔ i < 8 ∧ (s.lin.filler i).openBatch = some b := by
  unfold State.holdBatch
  split
  · rename_i h
    exact ⟨fun hb => ⟨h, hb⟩, fun hb => hb.2⟩
  · rename_i h
    exact ⟨nofun, fun hb => absurd hb.1 h⟩

/-- A hold is asserted by its latches or by a content cause of its open batch (R136, R137). -/
theorem State.holdView_asserted (s : State) (i : Nat) : (s.holdView i).asserted = true ↔
    s.hold.latch i ≠ 0 ∨ ∃ b, s.holdBatch i = some b ∧ (s.hold.causesFor (some b)).any = true := by
  simp only [State.holdView, Bool.or_eq_true, bne_iff_ne]
  refine or_congr_right ?_
  cases s.holdBatch i with
  | none => exact ⟨nofun, fun ⟨_, hb, _⟩ => by cases hb⟩
  | some b => exact ⟨fun h => ⟨b, rfl, h⟩, fun ⟨_, hb, h⟩ => Option.some.inj hb ▸ h⟩

/-- Settles O26: an operation ends with every hold shown as it is computed. -/
theorem holdsFollowLatchesAndCauses : Obligations.HoldsFollowLatchesAndCauses := by
  intro s t e ht hx i hi
  obtain ⟨t', ps, hx', hr⟩ := exec_row_result ht
  obtain rfl : t' = t := Host.Outcome.next.inj (hx'.symm.trans hx)
  rw [hr.views i hi]
  refine ⟨(t'.holdView_asserted i).trans (or_congr_right ?_), rfl⟩
  simp only [State.holdBatch_iff, HoldUnit.causesFor_any]
  exact ⟨fun ⟨b, ⟨h8, hb⟩, hc⟩ => ⟨h8, b, hb, hc⟩, fun ⟨h8, b, hb, hc⟩ => ⟨b, ⟨h8, hb⟩, hc⟩⟩

/-! ## Raising a condition (O27) -/

theorem CondVals.row_lt (c : CondVals) : c.row < 20 := by
  cases c <;> exact of_decide_eq_true rfl

theorem CondSet.has_add (x : CondSet) (row k : Nat) (hk : k < 20) :
    (CondSet.add x row).has k = true ↔ x.has k = true ∨ k = row := by
  unfold CondSet.add CondSet.has
  rw [BitVec.getLsbD_or, BitVec.getLsbD_shiftLeft, Bool.or_eq_true, BitVec.getLsbD_one]
  simp only [hk, decide_true, Bool.true_and, Bool.and_eq_true, Bool.not_eq_true', decide_eq_true_eq,
    decide_eq_false_iff_not]
  refine or_congr_right ⟨fun h => by omega, fun h => by subst h; omega⟩

/-- What the latch sets are after a kind has joined some of them. -/
theorem HoldUnit.has_latchAll (row : Nat) (ts : List Nat) (h : HoldUnit) {i k : Nat} (hi : i < 9) (hk : k < 20) :
    ((h.latchAll row ts).latch i).has k = true ↔ (h.latch i).has k = true ∨ (k = row ∧ i ∈ ts) := by
  induction ts generalizing h with
  | nil =>
    simp only [List.not_mem_nil, and_false, or_false]
    rfl
  | cons j ts ih =>
    have hstep : (({ h with latches := vset h.latches j ((h.latch j).add row) } : HoldUnit).latch i).has k = true ↔
        (h.latch i).has k = true ∨ (k = row ∧ i = j) := by
      change (vget (vset h.latches j ((h.latch j).add row)) i 0).has k = true ↔ _
      by_cases hj : j = i
      · subst hj
        rw [vget_vset_same _ _ _ _ hi, CondSet.has_add _ _ _ hk]
        simp only [and_true]
      · rw [vget_vset_ne _ _ _ _ _ hj]
        simp only [Ne.symm hj, and_false, or_false]
        rfl
    refine (ih _).trans ?_
    rw [hstep, or_assoc, ← and_or_left, List.mem_cons]

theorem Lineage.fillerVessel_isSome (l : Lineage) (f : Nat) : (l.fillerVessel f).isSome = true ↔
    ∃ v, v < 64 ∧ (l.vessel v).kind = .filler ∧ (l.vessel v).fillerIndex = f := by
  unfold Lineage.fillerVessel
  rw [List.find?_isSome]
  simp only [List.mem_range, Bool.and_eq_true, beq_iff_eq]

theorem Lineage.mem_latchTargets (l : Lineage) (target : HoldTarget) (filler : Option Nat) (i : Nat) :
    i ∈ l.latchTargets target filler ↔ match target with
      | .noHold => False
      | .namedFiller => filler = some i
      | .allFillers => i < 8 ∧ ∃ v, v < 64 ∧ (l.vessel v).kind = .filler ∧ (l.vessel v).fillerIndex = i
      | .dispatch => i = 8 := by
  cases target with
  | noHold => exact List.mem_nil_iff i
  | namedFiller => exact Option.mem_toList
  | allFillers =>
    unfold Lineage.latchTargets
    rw [List.mem_filter, List.mem_range, Lineage.fillerVessel_isSome]
  | dispatch => exact List.mem_singleton

theorem Lineage.latchTargets_sorted (l : Lineage) (target : HoldTarget) (filler : Option Nat) :
    (l.latchTargets target filler).Pairwise (· < ·) := by
  cases target with
  | noHold => exact List.Pairwise.nil
  | namedFiller => cases filler <;> simp [Lineage.latchTargets]
  | allFillers => exact List.Pairwise.filter _ List.pairwise_lt_range
  | dispatch => exact List.pairwise_singleton _ _

theorem tick32_eq (n : Nat) : tick32 n = min (n + 1) (max n 4294967295) := by
  unfold tick32
  change (if n < 4294967295 then n + 1 else n) = _
  split <;> omega

/-- Settles O27: the raise's equation, its counter, its latch sets and its targets. -/
theorem raiseCountsReportsAndLatches : Obligations.RaiseCountsReportsAndLatches := by
  intro s tag filler c
  dsimp only
  refine ⟨?_, fun k hk => ?_, fun i k hi hk => ?_, s.lin.mem_latchTargets _ filler, s.lin.latchTargets_sorted _ filler,
    ?_⟩
  · rw [State.raise_eq, State.raisedRecs]
    dsimp only
    split <;> rfl
  · obtain ⟨ls, hls⟩ := s.hold.raised_keeps c.row (s.lin.latchTargets (vget s.hold.policy c.row {}).target filler)
    rw [State.raise_eq, hls]
    by_cases he : c.row = k
    · subst he
      rw [vget_vset_same _ _ _ _ c.row_lt, if_pos rfl, tick32_eq]
    · rw [vget_vset_ne _ _ _ _ _ he, if_neg (Ne.symm he)]
  · rw [State.raise_eq]
    exact HoldUnit.has_latchAll c.row _ (s.hold.count c.row) hi hk
  · obtain ⟨ls, hls⟩ := s.hold.raised_keeps c.row (s.lin.latchTargets (vget s.hold.policy c.row {}).target filler)
    rw [State.raise_eq, hls]

/-! ## The pins (O28) -/

theorem State.engine_stalled (s : State) :
    s.engine = .stalled ↔ s.inFlight = none ∧ s.waiting = [] ∧ s.evq ≠ [] := by
  unfold State.engine State.clearPending State.busy
  cases hw : s.waiting with
  | nil => cases hi : s.inFlight <;> cases hq : s.evq <;> simp
  | cons w ws =>
    simp only [List.isEmpty_cons, Bool.not_false, Bool.or_true, if_true, reduceCtorEq, false_and, and_false, iff_false]
    split <;> nofun

/-- Some hold is asserted where one of the nine is. -/
theorem HoldUnit.any_shown (h : HoldUnit) :
    h.shown.toList.any (fun x => x.asserted) = true ↔ ∃ k, k < 9 ∧ (h.view k).asserted = true := by
  rw [List.any_eq_true]
  constructor
  · rintro ⟨x, hx, ha⟩
    obtain ⟨k, hk, rfl⟩ := List.mem_iff_getElem.mp hx
    have hk9 : k < 9 := by simpa using hk
    exact ⟨k, hk9, by rw [HoldUnit.view, vget_lt _ _ _ hk9]; exact ha⟩
  · rintro ⟨k, hk, ha⟩
    rw [HoldUnit.view, vget_lt _ _ _ hk] at ha
    exact ⟨_, by simp, ha⟩

/-- A pin's level once its source's activity is known. -/
theorem State.pin_of_source {s : State} {i : Nat} {active : Prop}
    (h : s.sourceActive (vget s.hold.outMap i {}) = true ↔ active) :
    (¬ active → s.pin i = .highZ) ∧
      (active → s.pin i = if (vget s.hold.outMap i {}).activeLow = true then .low else .high) :=
  ⟨fun hn => if_neg fun ha => hn (h.mp ha), fun ha => if_pos (h.mpr ha)⟩

/-- Settles O28: the activity of each source. -/
theorem pinsFollowTheirSources : Obligations.PinsFollowTheirSources := by
  intro s i hi
  refine State.pin_of_source ?_
  generalize vget s.hold.outMap i {} = o
  obtain ⟨source, filler, low⟩ := o
  cases source with
  | none => exact ⟨nofun, False.elim⟩
  | fillerHold => exact Iff.rfl
  | dispatchHold => exact Iff.rfl
  | anyHold => exact s.hold.any_shown
  | engineStalled => exact beq_iff_eq.trans s.engine_stalled
  | forcedOn => exact ⟨fun _ => trivial, fun _ => rfl⟩

/-! ## Combining (O37) -/

section combine

variable {v : EntryVal} {a : TimeStamp}

theorem EntryVal.sameReading_iff (v w : EntryVal) : v.sameReading w = true ↔
    (∃ m a b, v = .meter m a ∧ w = .meter m b) ∨ ∃ f a b, v = .carton f a ∧ w = .carton f b := by
  constructor
  · intro h
    cases v with
    | meter m x =>
      cases w with
      | meter n y => exact .inl ⟨m, x, y, rfl, by rw [beq_iff_eq.mp h]⟩
      | _ => cases h
    | carton m x =>
      cases w with
      | carton n y => exact .inr ⟨m, x, y, rfl, by rw [beq_iff_eq.mp h]⟩
      | _ => cases h
    | _ => cases h
  · rintro (⟨m, x, y, rfl, rfl⟩ | ⟨m, x, y, rfl, rfl⟩) <;> exact beq_self_eq_true m

/-- Two readings of one object are of a combinable kind both. -/
theorem EntryVal.combinable_of_sameReading {w : EntryVal} (h : v.sameReading w = true) :
    v.combinable = true ∧ w.combinable = true := by
  rcases (EntryVal.sameReading_iff v w).mp h with ⟨m, x, y, rfl, rfl⟩ | ⟨m, x, y, rfl, rfl⟩ <;> exact ⟨rfl, rfl⟩

/-- The youngest entry of the object combines when only combinable entries of other objects are younger. -/
theorem combineYoungest_hit {e : Entry} {front : List Entry} (he : v.sameReading e.val = true) (back : List Entry)
    (hb : ∀ x ∈ back, x.val.combinable = true ∧ v.sameReading x.val = false) :
    combineYoungest v a (back ++ e :: front) = some (back ++ { e with val := v, arrival := a } :: front) := by
  induction back with
  | nil =>
    rw [List.nil_append, combineYoungest, if_pos he]
    rfl
  | cons x back ih =>
    obtain ⟨hc, hs⟩ := hb x (List.mem_cons_self)
    rw [List.cons_append, combineYoungest, if_neg (by rw [hs]; nofun), if_pos hc,
      ih fun y hy => hb y (List.mem_cons_of_mem x hy)]
    rfl

/-- Nothing combines where an entry of another kind stands before the first of the object. -/
theorem combineYoungest_blocked {x : Entry} {front : List Entry} (hx : x.val.combinable = false) (back : List Entry)
    (hb : ∀ y ∈ back, v.sameReading y.val = false) : combineYoungest v a (back ++ x :: front) = none := by
  induction back with
  | nil =>
    have hs : v.sameReading x.val = false := Bool.eq_false_iff.mpr fun h => by
      rw [(EntryVal.combinable_of_sameReading h).2] at hx
      cases hx
    rw [List.nil_append, combineYoungest, if_neg (by rw [hs]; nofun), if_neg (by rw [hx]; nofun)]
  | cons y back ih =>
    rw [List.cons_append, combineYoungest, if_neg (by rw [hb y List.mem_cons_self]; nofun),
      ih fun z hz => hb z (List.mem_cons_of_mem y hz)]
    exact ite_self _

/-- Nothing combines where no entry is of the object. -/
theorem combineYoungest_miss (q : List Entry) (hq : ∀ y ∈ q, v.sameReading y.val = false) :
    combineYoungest v a q = none := by
  induction q with
  | nil => rfl
  | cons y q ih =>
    rw [combineYoungest, if_neg (by rw [hq y List.mem_cons_self]; nofun),
      ih fun z hz => hq z (List.mem_cons_of_mem y hz)]
    exact ite_self _

theorem combine_of_combinable (hv : v.combinable = true) (q : List Entry) :
    combine v a q = (combineYoungest v a q.reverse).map List.reverse := if_pos hv

theorem combine_of_not_combinable (hv : v.combinable = false) (q : List Entry) : combine v a q = none :=
  if_neg (by rw [hv]; nofun)

/-- Nothing combines where the search from the youngest entry finds nothing. -/
theorem combine_none {q : List Entry} (h : combineYoungest v a q.reverse = none) : combine v a q = none := by
  unfold combine
  rw [h]
  exact ite_self _

/-- Gap handling of a queue that holds a GAP entry (R155). -/
theorem gapHandling_standing {front back : List Entry} {t : TimeStamp} {tag n : Nat} {c : Bool}
    (hno : ∀ e ∈ front ++ back, e.isGap = false) :
    gapHandling a (front ++ ⟨.gap n, t, tag, c⟩ :: back) = front ++ back ++ [⟨.gap (tick32 n), t, tag, c⟩] := by
  have hf : ∀ e ∈ front, e.isGap = false := fun e he => hno e (List.mem_append_left back he)
  have hfind : (front ++ ⟨.gap n, t, tag, c⟩ :: back).find? Entry.isGap = some ⟨.gap n, t, tag, c⟩ := by
    rw [List.find?_append, List.find?_eq_none.mpr (by simpa using hf)]
    rfl
  have hrest : (front ++ ⟨.gap n, t, tag, c⟩ :: back).filter (fun e => !e.isGap) = front ++ back := by
    rw [List.filter_append, List.filter_cons_of_neg (by simp [Entry.isGap]), ← List.filter_append]
    exact List.filter_eq_self.mpr fun e he => by rw [hno e he]; rfl
  unfold gapHandling
  rw [hfind, hrest]
  rfl

theorem gapHandling_new {q : List Entry} (hno : ∀ e ∈ q, e.isGap = false) :
    gapHandling a q = q ++ [⟨.gap 1, a, 0, false⟩] := by
  unfold gapHandling
  rw [List.find?_eq_none.mpr (by simpa using hno)]

end combine

/-- An item that does not combine joins the queue where an ordinary slot is free. -/
theorem State.offerItem_joins {s : State} {v : EntryVal} {a : TimeStamp} (hc : combine v a s.evq = none)
    (hq : ordinaryCount s.evq < 63) :
    s.offerItem v a = ({ s with evq := s.evq ++ [⟨v, a, 0, false⟩] }, true) := by
  unfold State.offerItem
  rw [hc]
  dsimp only
  rw [State.append_room _ hq]
  rfl

/-- An item that finds no ordinary slot is dropped where it is a reading, and makes the GAP entry else. -/
theorem State.offerItem_refused {s : State} {v : EntryVal} {a : TimeStamp} (hc : combine v a s.evq = none)
    (hq : 63 ≤ ordinaryCount s.evq) : s.offerItem v a =
      if v.combinable then ({ s with dec := { s.dec with readingsDropped := tick32 s.dec.readingsDropped } }, false)
      else ({ s with evq := gapHandling a s.evq }, false) := by
  unfold State.offerItem
  rw [hc]
  dsimp only
  rw [State.append_full _ hq]
  rfl

/-- Settles O37: the search from the youngest entry, then the offer's three outcomes. -/
theorem offersCombineOrAreRefused : Obligations.OffersCombineOrAreRefused := by
  refine ⟨fun v a q => ⟨?hit, fun hq => ?miss, combine_of_not_combinable (q := q), ?blocked⟩, ?combined,
    fun s v a hc => ⟨State.offerItem_joins hc, fun hq => ⟨fun hv => ?dropped, fun hv hno => ?gap, ?standing⟩⟩,
    EntryVal.sameReading_iff⟩
  case hit =>
    rintro front e back rfl he hb
    rw [combine_of_combinable (EntryVal.combinable_of_sameReading he).1, List.reverse_append, List.reverse_cons,
      List.append_assoc, List.singleton_append,
      combineYoungest_hit he back.reverse fun x hx => hb x (List.mem_reverse.mp hx)]
    simp
  case miss => exact combine_none (combineYoungest_miss _ fun y hy => hq y (List.mem_reverse.mp hy))
  case blocked =>
    rintro front x back rfl hx hb
    refine combine_none ?_
    rw [List.reverse_append, List.reverse_cons, List.append_assoc, List.singleton_append]
    exact combineYoungest_blocked hx back.reverse fun y hy => hb y (List.mem_reverse.mp hy)
  case combined =>
    intro s v a q hc
    unfold State.offerItem
    rw [hc]
    rfl
  case dropped => rw [State.offerItem_refused hc hq, if_pos hv]
  case gap => rw [State.offerItem_refused hc hq, if_neg (by rw [hv]; nofun), gapHandling_new hno]
  case standing =>
    intro hv front back t tag c n he hno
    rw [State.offerItem_refused hc hq, if_neg (by rw [hv]; nofun), he, gapHandling_standing hno]

/-! ## Taking (O24) -/

section taking

/-- The pending idle closes of some fillers, with their fillers. -/
def Lineage.idleOffers (l : Lineage) (fs : List Nat) : List (Nat × Nat × TimeStamp) :=
  fs.filterMap (fun f => (l.filler f).pendingIdle.map (fun p => (f, p.1, p.2)))

/-- The lineage state with the pending idle closes of some fillers cleared. -/
def Lineage.unpend (l : Lineage) (fs : List Nat) : Lineage :=
  { l with fillers := l.fillers.mapIdx (fun f x => if f ∈ fs then { x with pendingIdle := none } else x) }

variable (l : Lineage)

theorem Lineage.unpend_nil : l.unpend [] = l := by
  have h : l.fillers.mapIdx (fun f x => if f ∈ [] then { x with pendingIdle := none } else x) = l.fillers :=
    vec_ext _ {} _ fun i hi => by
      rw [vget_mapIdx (d := {}) (h := hi), if_neg List.not_mem_nil]
  unfold Lineage.unpend
  rw [h]

theorem Lineage.unpend_cons (f : Nat) (fs : List Nat) :
    (l.setFiller f { l.filler f with pendingIdle := none }).unpend fs = l.unpend (f :: fs) := by
  have h : (vset l.fillers f { l.filler f with pendingIdle := none }).mapIdx
        (fun g x => if g ∈ fs then { x with pendingIdle := none } else x) =
      l.fillers.mapIdx (fun g x => if g ∈ f :: fs then { x with pendingIdle := none } else x) := by
    refine vec_ext _ {} _ fun i hi => ?_
    rw [vget_mapIdx (d := {}) (h := hi), vget_mapIdx (d := {}) (h := hi)]
    by_cases hfi : f = i
    · subst hfi
      rw [vget_vset_same _ _ _ _ hi, if_pos List.mem_cons_self]
      exact ite_self _
    · rw [vget_vset_ne _ _ _ _ _ hfi]
      exact if_congr (by simp [Ne.symm hfi]) rfl rfl
  unfold Lineage.unpend Lineage.setFiller
  rw [h]

theorem Lineage.idleOffers_setFiller_ne {f : Nat} {fs : List Nat} (hf : f ∉ fs) (x : Filler) :
    (l.setFiller f x).idleOffers fs = l.idleOffers fs :=
  List.filterMap_congr fun g hg => by
    have hne : f ≠ g := fun e => hf (e ▸ hg)
    rw [Lineage.setFiller_ne hne]

/-- Fillers offering their pending idle closes one after another fill the ordinary slots in their order. -/
theorem State.offerPendings_eq (fs : List Nat) (hn : fs.Nodup) (s : State) :
    fs.foldl State.offerPending s =
      (let accepted := (s.lin.idleOffers fs).take (63 - ordinaryCount s.evq)
      { s with
        evq := s.evq ++ accepted.map (fun o => Entry.mk (.idleClose o.1 o.2.1 o.2.2) s.mgmt.clock 0 false)
        lin := s.lin.unpend (accepted.map Prod.fst) }) := by
  induction fs generalizing s with
  | nil => simp [Lineage.idleOffers, Lineage.unpend_nil]
  | cons f fs ih =>
    obtain ⟨hf, hn⟩ := List.nodup_cons.mp hn
    rw [List.foldl_cons]
    cases hp : (s.lin.filler f).pendingIdle with
    | none =>
      have hs : s.offerPending f = s := by simp only [State.offerPending, hp]
      have ho : s.lin.idleOffers (f :: fs) = s.lin.idleOffers fs :=
        List.filterMap_cons_none (by rw [hp]; rfl)
      rw [hs, ho]
      exact ih hn s
    | some p =>
      have ho : s.lin.idleOffers (f :: fs) = (f, p.1, p.2) :: s.lin.idleOffers fs :=
        List.filterMap_cons_some (by rw [hp]; rfl)
      rw [ho]
      by_cases hq : ordinaryCount s.evq < 63
      · let u : State := { s with
          evq := s.evq ++ [⟨.idleClose f p.1 p.2, s.mgmt.clock, 0, false⟩]
          lin := s.lin.setFiller f { s.lin.filler f with pendingIdle := none } }
        have hs : s.offerPending f = u := by
          simp only [State.offerPending, hp, State.offerIdle, State.append_room _ hq]
          rfl
        have hcount : ordinaryCount u.evq = ordinaryCount s.evq + 1 := ordinaryCount_append _ _
        have htake : 63 - ordinaryCount s.evq = (63 - (ordinaryCount s.evq + 1)) + 1 := by omega
        rw [hs, ih hn u, hcount, htake, List.take_succ_cons]
        dsimp only
        rw [s.lin.idleOffers_setFiller_ne hf, Lineage.unpend_cons, List.append_assoc]
        rfl
      · have hs : s.offerPending f = s := by
          simp only [State.offerPending, hp, State.offerIdle, State.append_full _ (Nat.le_of_not_lt hq)]
          rfl
        have htake : 63 - ordinaryCount s.evq = 0 := Nat.sub_eq_zero_of_le (Nat.le_of_not_lt hq)
        rw [hs, ih hn s, htake, List.take_zero, List.take_zero]

theorem State.mayTake_iff (s : State) : s.mayTake = true ↔
    s.resetAsserted = false ∧ s.inFlight = none ∧ s.waiting = [] ∧ s.evq ≠ [] ∧ 80 ≤ s.jrn.free := by
  simp only [State.mayTake, Bool.and_eq_true, Bool.not_eq_true', Option.isNone_iff_eq_none, List.isEmpty_iff,
    List.isEmpty_eq_false_iff, decide_eq_true_eq, and_assoc]
  exact Iff.rfl

end taking

/-- Settles O24: the taking, and the offers of the pending idle closes one after another. -/
theorem engineTakesTheOldestEntry : Obligations.EngineTakesTheOldestEntry := by
  intro s
  refine ⟨fun e rest hr hi hw hq hj => ?_, fun h => if_neg fun hm => ?_⟩
  · have hs : s.settle = s.takeNext := if_pos (s.mayTake_iff.mpr ⟨hr, hi, hw, by rw [hq]; nofun, hj⟩)
    have ht : s.takeNext =
        if e.isGap then (s.setEvq rest).setInFlight (some { toEntry := e, takenAt := s.now })
        else (List.range 8).foldl State.offerPending
          ((s.setEvq rest).setInFlight (some { toEntry := e, takenAt := s.now })) := by
      simp only [State.takeNext, hq]
    rw [hs, ht]
    refine ⟨fun hg => ?_, fun hg => ?_⟩
    · rw [if_neg (by rw [hg]; nofun), State.offerPendings_eq _ List.nodup_range]
      rfl
    · rw [if_pos hg]
      rfl
  · obtain ⟨hr, hi, hw, hq, hj⟩ := s.mayTake_iff.mp hm
    rcases h with h | h | h | h | h
    · rw [hr] at h
      cases h
    · exact h hi
    · exact h hw
    · exact hq h
    · exact absurd hj (Nat.not_le_of_lt h)

end Sys2Proof.Machine

/-! Meter readings and where the metered volume goes: O29, O30. A volume is first counted (the jump's raise, the
segment, its flag), in one equation; each case of R89 then is one equation on what that leaves. -/

namespace Sys2Proof.Machine

open Sys2Proof

/-! ## The row of an entry, and a raise, where the operation is known -/

/-- The row of an entry whose operation and records are known, with its ports. -/
theorem exec_row_ports {s : State} {e : TakenEntry} {i : Instr} {o : OpEnd} {ps : List Payload} (ht : Taken s e)
    (hrow : e.val.row = i) (hop : e.operation s = o) (hj : o.st.jrn = s.jrn.writeAll s.now e.tag ps) :
    ∃ t, exec i s = .next t ∧ OpResult s t e.tag o.st.lin o.st.hold ps o.after o.released ∧
      ∀ q, t.port q = o.st.port q := by
  subst hop
  refine ⟨_, hrow ▸ exec_row ht, (e.operation s).finish_result (e.operation_frame s) ps hj, fun q => ?_⟩
  rw [OpEnd.finish_eq_settle, (State.settle_frame _).port, OpEnd.close_port]

/-- The row of an entry whose operation and records are known. -/
theorem exec_row_of {s : State} {e : TakenEntry} {i : Instr} {o : OpEnd} {ps : List Payload} (ht : Taken s e)
    (hrow : e.val.row = i) (hop : e.operation s = o) (hj : o.st.jrn = s.jrn.writeAll s.now e.tag ps) :
    ∃ t, exec i s = .next t ∧ OpResult s t e.tag o.st.lin o.st.hold ps o.after o.released := by
  obtain ⟨t, hx, hr, _⟩ := exec_row_ports ht hrow hop hj
  exact ⟨t, hx, hr⟩

/-- A raise behind other changes of the lineage state and other records. -/
theorem State.raise_after (s : State) (tag : Nat) (filler : Option Nat) (c : CondVals) {l : Lineage}
    (h : ∀ f, l.fillerVessel f = s.lin.fillerVessel f) (ps : List Payload) :
    ({ s with lin := l, jrn := s.jrn.writeAll s.now tag ps } : State).raise tag filler c =
      { s with
        lin := l
        hold := s.raisedHold filler c
        jrn := s.jrn.writeAll s.now tag (ps ++ s.raisedRecs filler c) } := by
  have hr := State.raise_setLin { s with jrn := s.jrn.writeAll s.now tag ps } tag filler c (l := l) h
  rw [Journal.writeAll_append]
  exact hr

/-! ## Vessels made uncertain together, and a meter -/

section uncertain

variable (l : Lineage)

theorem Lineage.setUncertainAll_congr {vs ws : List Nat} (h : ∀ v, v ∈ vs ↔ v ∈ ws) :
    l.setUncertainAll vs = l.setUncertainAll ws := by
  rw [Lineage.setUncertainAll_others vs, Lineage.setUncertainAll_others ws]
  have hv : (l.setUncertainAll vs).vessels = (l.setUncertainAll ws).vessels := vec_ext _ {} _ fun u _ => by
    change (l.setUncertainAll vs).vessel u = (l.setUncertainAll ws).vessel u
    rw [Lineage.vessel_setUncertainAll, Lineage.vessel_setUncertainAll]
    exact if_congr (h u) rfl rfl
  have hf : (l.setUncertainAll vs).fillers = (l.setUncertainAll ws).fillers := vec_ext _ {} _ fun f hf => by
    change (l.setUncertainAll vs).filler f = (l.setUncertainAll ws).filler f
    rw [Lineage.filler_setUncertainAll hf, Lineage.filler_setUncertainAll hf]
    simp only [h]
  rw [hv, hf]

theorem Lineage.setUncertainAll_append (vs ws : List Nat) :
    (l.setUncertainAll vs).setUncertainAll ws = l.setUncertainAll (vs ++ ws) :=
  (List.foldl_append ..).symm

theorem Lineage.setUncertainAll_twice (vs : List Nat) :
    (l.setUncertainAll vs).setUncertainAll vs = l.setUncertainAll vs := by
  rw [Lineage.setUncertainAll_append]
  exact l.setUncertainAll_congr fun v => by rw [List.mem_append, or_self]

theorem Lineage.setUncertain_setMeter (v m : Nat) (x : Meter) :
    (l.setMeter m x).setUncertain v = (l.setUncertain v).setMeter m x := by
  have hv : (l.setMeter m x).vessel v = l.vessel v := rfl
  cases hk : (l.vessel v).kind <;> simp only [Lineage.setUncertain, hv, hk] <;> rfl

theorem Lineage.setUncertainAll_setMeter (vs : List Nat) (m : Nat) (x : Meter) :
    (l.setMeter m x).setUncertainAll vs = (l.setUncertainAll vs).setMeter m x := by
  induction vs generalizing l with
  | nil => rfl
  | cons v vs ih => rw [Lineage.setUncertainAll_cons, Lineage.setUncertainAll_cons, Lineage.setUncertain_setMeter, ih]

theorem Lineage.meter_setUncertainAll (vs : List Nat) (m : Nat) : (l.setUncertainAll vs).meter m = l.meter m := by
  rw [Lineage.setUncertainAll_others]
  rfl

theorem Lineage.namedFiller_setUncertainAll (vs : List Nat) (u : Nat) :
    (l.setUncertainAll vs).namedFiller u = l.namedFiller u := by
  simp only [Lineage.namedFiller, Lineage.vessel_setUncertainAll]
  split <;> rfl

theorem Lineage.setMeter_setMeter (m : Nat) (x y : Meter) : (l.setMeter m x).setMeter m y = l.setMeter m y := by
  simp only [Lineage.setMeter, vset_vset]

end uncertain

/-! ## Counting a volume -/

/-- An open segment after a volume is counted: one that would pass its limit is opened anew (R87). -/
def Segment.counted (g : Segment) (now : TimeStamp) (v : Nat) : Segment :=
  if 2 ^ 48 - 1 < g.vol + v then { start := now, vol := v, flags := {} } else { g with vol := g.vol + v }

/-- The flags of a segment after a volume above the jump limit, or another, is counted in it (R86). -/
def Segment.jumped (g : Segment) (jump : Bool) : SegFlags := if jump then { g.flags with jump := true } else g.flags

/-- The record of a meter's segment that its limit closes (R87). -/
def Lineage.limitRecords (l : Lineage) (now : TimeStamp) (m v : Nat) : List Payload :=
  if 2 ^ 48 - 1 < (l.meter m).seg.vol + v ∧ (l.meter m).seg.vol ≠ 0 then
    [.segment
      { meter := m, route := (l.meter m).route, start := (l.meter m).seg.start, stop := now,
        vol := (l.meter m).seg.vol, flags := (l.meter m).seg.flags, reason := .limit }]
  else []

/-- A meter with a volume counted in its open segment and flagged. -/
def Lineage.charged (l : Lineage) (now : TimeStamp) (m v : Nat) (jump : Bool) (f : SegFlags → SegFlags) : Lineage :=
  l.setMeter m { l.meter m with
    seg := { (l.meter m).seg.counted now v with flags := f (((l.meter m).seg.counted now v).jumped jump) } }

/-- The parties of the routed case, whose uncertain flags a jump sets (R26). -/
def FlowCase.parties : FlowCase → List Nat
  | .routed src dst => [src, dst]
  | _ => []

section counting

variable (s : State) {m : Nat} (hm : m < 48)
include hm

omit hm in
theorem State.closeSegment_limit (tag : Nat) : s.closeSegment m .limit tag =
    { s with jrn := s.jrn.writeAll s.now tag (if (s.lin.meter m).seg.vol ≠ 0 then
      [.segment
        { meter := m, route := (s.lin.meter m).route, start := (s.lin.meter m).seg.start, stop := s.now,
          vol := (s.lin.meter m).seg.vol, flags := (s.lin.meter m).seg.flags, reason := .limit }] else []) } := by
  by_cases hv : (s.lin.meter m).seg.vol = 0
  · simp only [State.closeSegment, hv, beq_self_eq_true, if_true, ne_eq, not_true, if_false, Journal.writeAll_nil]
  · simp only [State.closeSegment, beq_iff_eq, hv, if_false, ne_eq, not_false_iff, if_true]
    rfl

theorem State.countSegment_eq (v tag : Nat) : s.countSegment m v tag =
    { s with
      lin := s.lin.setMeter m { s.lin.meter m with seg := (s.lin.meter m).seg.counted s.now v }
      jrn := s.jrn.writeAll s.now tag (s.lin.limitRecords s.now m v) } := by
  by_cases hlim : 2 ^ 48 - 1 < (s.lin.meter m).seg.vol + v
  · have hcount : s.countSegment m v tag = (let t := (s.closeSegment m .limit tag).openSegment m
        t.setLin (t.lin.updMeter m (fun x => { x with seg := { x.seg with vol := x.seg.vol + v } }))) := by
      unfold State.countSegment
      rw [if_pos (show Config.volume48Max < _ from hlim)]
    rw [hcount, State.closeSegment_limit]
    simp only [State.openSegment, State.setLin, Lineage.updMeter_updMeter hm, Nat.zero_add, Segment.counted,
      Lineage.limitRecords, hlim, if_true, true_and]
    rfl
  · have hcount : s.countSegment m v tag =
        s.setLin (s.lin.updMeter m (fun x => { x with seg := { x.seg with vol := x.seg.vol + v } })) := by
      unfold State.countSegment
      rw [if_neg (show ¬ Config.volume48Max < _ from hlim)]
    rw [hcount]
    simp only [Segment.counted, Lineage.limitRecords, hlim, if_false, false_and, Journal.writeAll_nil]
    rfl

/-- The segment's volume counted and the jump's flag set. -/
theorem State.flagCount_eq (v tag : Nat) (jump : Bool) : (s.countSegment m v tag).flagJump m jump =
    { s with
      lin := s.lin.charged s.now m v jump id
      jrn := s.jrn.writeAll s.now tag (s.lin.limitRecords s.now m v) } := by
  rw [State.countSegment_eq s hm]
  cases jump with
  | false => rfl
  | true =>
    unfold State.flagJump State.flagSegment
    rw [if_pos rfl]
    unfold Lineage.updMeter
    simp only [Lineage.setMeter_same hm, Lineage.setMeter_setMeter]
    rfl

/-- A flag set on the segment that counted a volume. -/
theorem Lineage.charged_flag (l : Lineage) (now : TimeStamp) (v : Nat) (jump : Bool) (f : SegFlags → SegFlags)
    (vs : List Nat) :
    ((l.charged now m v jump id).setUncertainAll vs).updMeter m (fun x => { x with seg :=
        { x.seg with flags := f x.seg.flags } }) = (l.charged now m v jump f).setUncertainAll vs := by
  unfold Lineage.updMeter Lineage.charged
  rw [Lineage.meter_setUncertainAll, ← Lineage.setUncertainAll_setMeter, Lineage.setMeter_same hm,
    Lineage.setMeter_setMeter]
  rfl

end counting

/-! ## The flow of a volume -/

/-- The state with the Condition and Hold unit after the check against the jump limit (R26). -/
def State.afterJump (s : State) (m v : Nat) : State :=
  s.setHold (if (s.lin.meter m).jumps v then s.raisedHold (s.lin.routeFiller m) (.meterJump m v) else s.hold)

/-- The records of the check against the jump limit and of the count (R26, R87). -/
def State.chargeRecords (s : State) (m v : Nat) : List Payload :=
  (if (s.lin.meter m).jumps v then s.raisedRecs (s.lin.routeFiller m) (.meterJump m v) else []) ++
    s.lin.limitRecords s.now m v

/-- The state when a volume has been counted and the case of R89 is due, with the segment flagged by `f`. -/
def State.charge (s : State) (m v tag : Nat) (f : SegFlags → SegFlags) : State :=
  { s.afterJump m v with
    lin := (s.lin.charged s.now m v ((s.lin.meter m).jumps v) f).setUncertainAll
      (if (s.lin.meter m).jumps v then (s.lin.flowCase (s.lin.meter m).route).parties else [])
    jrn := s.jrn.writeAll s.now tag (s.chargeRecords m v) }

section flow

variable (s : State) {m : Nat} (hm : m < 48) (v tag : Nat)

theorem State.flowJump_eq (c : FlowCase) : s.flowJump m v tag c =
    { s with
      lin := s.lin.setUncertainAll c.parties
      hold := s.raisedHold (s.lin.routeFiller m) (.meterJump m v)
      jrn := s.jrn.writeAll s.now tag (s.raisedRecs (s.lin.routeFiller m) (.meterJump m v)) } := by
  have h := s.raise_setLin tag (s.lin.routeFiller m) (.meterJump m v)
    (s.lin.fillerVessel_setUncertainAll c.parties)
  cases c <;> exact h

/-- A raise of the case of R89, behind the check and the count. -/
theorem State.charge_raise (m : Nat) (f : SegFlags → SegFlags) (vs : List Nat) (ps : List Payload) (filler : Option Nat)
    (c : CondVals) :
    ({ s.afterJump m v with
        lin := (s.lin.charged s.now m v ((s.lin.meter m).jumps v) f).setUncertainAll vs
        jrn := s.jrn.writeAll s.now tag ps } : State).raise tag filler c =
      { s.afterJump m v with
        lin := (s.lin.charged s.now m v ((s.lin.meter m).jumps v) f).setUncertainAll vs
        hold := (s.afterJump m v).raisedHold filler c
        jrn := s.jrn.writeAll s.now tag (ps ++ (s.afterJump m v).raisedRecs filler c) } :=
  (s.afterJump m v).raise_after tag filler c
    (l := (s.lin.charged s.now m v ((s.lin.meter m).jumps v) f).setUncertainAll vs)
    (fun g => Lineage.fillerVessel_setUncertainAll _ vs g) ps

include hm

theorem State.flow_eq : s.flow m v tag = (s.charge m v tag id).flowByCase m v tag ((s.lin.meter m).jumps v)
    (s.lin.flowCase (s.lin.meter m).route) := by
  refine congrArg (fun t => State.flowByCase t m v tag _ _) ?_
  unfold State.charge State.afterJump State.chargeRecords
  cases (s.lin.meter m).jumps v with
  | false => exact s.flagCount_eq hm v tag false
  | true =>
    simp only [if_true]
    rw [State.flowJump_eq, State.flagCount_eq _ hm]
    generalize (s.lin.flowCase (s.lin.meter m).route).parties = vs
    have hl : (s.lin.setUncertainAll vs).charged s.now m v true id = (s.lin.charged s.now m v true id).setUncertainAll vs := by
      unfold Lineage.charged
      rw [Lineage.setUncertainAll_setMeter, Lineage.meter_setUncertainAll]
    have hr : (s.lin.setUncertainAll vs).limitRecords s.now m v = s.lin.limitRecords s.now m v := by
      unfold Lineage.limitRecords
      rw [Lineage.meter_setUncertainAll]
    rw [Journal.writeAll_append, ← hl, ← hr]
    rfl

/-- Flagging the segment that counted the volume. -/
theorem State.charge_flag (f : SegFlags → SegFlags) : (s.charge m v tag id).flagSegment m f = s.charge m v tag f :=
  congrArg (fun l => { s.afterJump m v with lin := l, jrn := s.jrn.writeAll s.now tag (s.chargeRecords m v) })
    (Lineage.charged_flag hm s.lin s.now v ((s.lin.meter m).jumps v) f _)

omit hm in
/-- In a case without parties the check against the jump limit leaves the vessels alone. -/
theorem State.charge_of_parties (f : SegFlags → SegFlags) (h : (s.lin.flowCase (s.lin.meter m).route).parties = []) :
    s.charge m v tag f = { s.afterJump m v with
      lin := s.lin.charged s.now m v ((s.lin.meter m).jumps v) f
      jrn := s.jrn.writeAll s.now tag (s.chargeRecords m v) } := by
  unfold State.charge
  rw [h, ite_self]
  rfl

theorem State.flow_unrouted (hr : (s.lin.meter m).route = none) : s.flow m v tag =
    { s.afterJump m v with
      lin := (s.lin.charged s.now m v ((s.lin.meter m).jumps v) (fun f => { f with unrouted := true })).setUncertainAll
        (s.lin.candidates m)
      hold := (s.afterJump m v).raisedHold none (.unrouted m v)
      jrn := s.jrn.writeAll s.now tag (s.chargeRecords m v ++ (s.afterJump m v).raisedRecs none (.unrouted m v)) } := by
  have hcase : s.lin.flowCase (s.lin.meter m).route = .unrouted := by rw [hr]; rfl
  rw [State.flow_eq s hm, hcase]
  unfold State.flowByCase State.flowUnrouted
  dsimp only
  rw [State.charge_flag s hm, State.charge_of_parties _ _ _ _ (by rw [hcase]; rfl)]
  exact s.charge_raise v tag m (fun f => { f with unrouted := true }) (s.lin.candidates m) (s.chargeRecords m v) none
    (.unrouted m v)

theorem State.flow_loop {p : Route} (hr : (s.lin.meter m).route = some p) (hp : p.src = p.dst) : s.flow m v tag =
    { s.afterJump m v with
      lin := s.lin.charged s.now m v ((s.lin.meter m).jumps v) (fun f => { f with sameVessel := true })
      jrn := s.jrn.writeAll s.now tag (s.chargeRecords m v) } := by
  have hcase : s.lin.flowCase (s.lin.meter m).route = .loop := by
    rw [hr, Lineage.flowCase, if_pos (beq_iff_eq.mpr hp)]
  rw [State.flow_eq s hm, hcase]
  unfold State.flowByCase
  dsimp only
  rw [State.charge_flag s hm, State.charge_of_parties _ _ _ _ (by rw [hcase]; rfl)]

theorem State.flow_cleaning {p : Route} (hr : (s.lin.meter m).route = some p) (hp : p.src ≠ p.dst)
    (hc : s.lin.isCleaning p.src = true ∨ s.lin.isCleaning p.dst = true) : s.flow m v tag =
    { s.afterJump m v with
      lin := (s.lin.charged s.now m v ((s.lin.meter m).jumps v) (fun f => { f with cleaning := true })).setUncertainAll
        (if s.lin.isCleaning p.dst then [] else [p.dst])
      hold := (s.afterJump m v).raisedHold (s.lin.namedFiller p.dst) (.cleaningFlow m p.src p.dst v)
      jrn := s.jrn.writeAll s.now tag (s.chargeRecords m v ++
        (s.afterJump m v).raisedRecs (s.lin.namedFiller p.dst) (.cleaningFlow m p.src p.dst v)) } := by
  have hcase : s.lin.flowCase (s.lin.meter m).route = .cleaning p.src p.dst := by
    rw [hr, Lineage.flowCase, if_neg (fun h => hp (beq_iff_eq.mp h)), if_pos (by rwa [Bool.or_eq_true])]
  have hfiller : (s.charge m v tag id).lin.namedFiller p.dst = s.lin.namedFiller p.dst :=
    Lineage.namedFiller_setUncertainAll _ _ _
  have hclean : (s.lin.charged s.now m v ((s.lin.meter m).jumps v) (fun f => { f with cleaning := true })).isCleaning
      p.dst = s.lin.isCleaning p.dst := rfl
  rw [State.flow_eq s hm, hcase]
  unfold State.flowByCase State.flowCleaning
  dsimp only
  rw [State.charge_flag s hm, hfiller, State.charge_of_parties _ _ _ _ (by rw [hcase]; rfl)]
  dsimp only
  rw [hclean]
  have hraise := fun vs => s.charge_raise v tag m (fun f => { f with cleaning := true }) vs (s.chargeRecords m v)
    (s.lin.namedFiller p.dst) (.cleaningFlow m p.src p.dst v)
  cases s.lin.isCleaning p.dst with
  | true => exact hraise []
  | false => exact hraise [p.dst]

/-- The state from which the transfer of routed flow starts (R93): above the cap both parties are uncertain and the
rest is raised as OVERFILL. -/
theorem State.flowCap_eq {p : Route} (hcase : s.lin.flowCase (s.lin.meter m).route = .routed p.src p.dst) :
    (s.charge m v tag id).flowCap m p.src p.dst v tag =
    { s.afterJump m v with
      lin := (s.lin.charged s.now m v ((s.lin.meter m).jumps v)
        (fun f => if 1000000000 < v then { f with capped := true } else f)).setUncertainAll
          (if (s.lin.meter m).jumps v = true ∨ 1000000000 < v then [p.src, p.dst] else [])
      hold := if 1000000000 < v then
        (s.afterJump m v).raisedHold (s.lin.namedFiller p.dst) (.overfill p.dst (v - 1000000000))
        else (s.afterJump m v).hold
      jrn := s.jrn.writeAll s.now tag (s.chargeRecords m v ++ if 1000000000 < v then
        (s.afterJump m v).raisedRecs (s.lin.namedFiller p.dst) (.overfill p.dst (v - 1000000000)) else []) } := by
  by_cases ha : 1000000000 < v
  · have hfiller : (s.charge m v tag id).lin.namedFiller p.dst = s.lin.namedFiller p.dst :=
      Lineage.namedFiller_setUncertainAll _ _ _
    have hl : (s.charge m v tag (fun f => { f with capped := true })).lin.setUncertainAll [p.src, p.dst] =
        (s.lin.charged s.now m v ((s.lin.meter m).jumps v) (fun f => { f with capped := true })).setUncertainAll
          [p.src, p.dst] := by
      unfold State.charge
      rw [hcase]
      dsimp only [FlowCase.parties]
      split
      · exact Lineage.setUncertainAll_twice _ _
      · rfl
    have hcap : (s.charge m v tag id).flowCap m p.src p.dst v tag =
        ({ s.afterJump m v with
          lin := (s.charge m v tag (fun f => { f with capped := true })).lin.setUncertainAll [p.src, p.dst]
          jrn := s.jrn.writeAll s.now tag (s.chargeRecords m v) } : State).raise tag
          (s.lin.namedFiller p.dst) (.overfill p.dst (v - 1000000000)) := by
      unfold State.flowCap
      rw [if_pos (show Config.contentCeiling < v from ha), hfiller]
      dsimp only
      rw [State.charge_flag s hm]
      rfl
    rw [hcap, hl, State.charge_raise]
    simp only [ha, if_true, or_true]
  · have hcap : (s.charge m v tag id).flowCap m p.src p.dst v tag = s.charge m v tag id := by
      unfold State.flowCap
      rw [if_neg (show ¬ Config.contentCeiling < v from ha)]
    rw [hcap]
    simp only [ha, if_false, or_false, List.append_nil]
    unfold State.charge
    rw [hcase]
    rfl

omit hm in
theorem Lineage.flowCase_routed {l : Lineage} {p : Route} (hp : p.src ≠ p.dst) (hc1 : l.isCleaning p.src = false)
    (hc2 : l.isCleaning p.dst = false) : l.flowCase (some p) = .routed p.src p.dst := by
  rw [Lineage.flowCase, if_neg (fun h => hp (beq_iff_eq.mp h)), if_neg (by rw [hc1, hc2]; nofun)]

theorem State.flow_routed {p : Route} (hcase : s.lin.flowCase (s.lin.meter m).route = .routed p.src p.dst) :
    s.flow m v tag =
    (((s.charge m v tag id).flowCap m p.src p.dst v tag).transfer p.src p.dst (min v 1000000000) tag
      ((s.lin.meter m).jumps v || decide (1000000000 < v))).st := by
  rw [State.flow_eq s hm, hcase]
  rfl

end flow

/-! ## The meters after a flow -/

/-- A flow changes its own meter's record alone: the volume is counted in its segment, which is flagged. -/
theorem State.flow_meters (s : State) {m : Nat} (hm : m < 48) (v tag : Nat) : ∃ f, ∀ k,
    (s.flow m v tag).lin.meter k = (s.lin.charged s.now m v ((s.lin.meter m).jumps v) f).meter k := by
  suffices h : ∃ f, (s.flow m v tag).lin.meters = (s.lin.charged s.now m v ((s.lin.meter m).jumps v) f).meters from
    h.imp fun f hf k => congrArg (fun ms : Vector Meter 48 => vget ms k {}) hf
  have hun : ∀ (l : Lineage) vs, (l.setUncertainAll vs).meters = l.meters := fun l vs => by
    rw [Lineage.setUncertainAll_others]
  cases hr : (s.lin.meter m).route with
  | none => exact ⟨_, by rw [s.flow_unrouted hm v tag hr]; exact hun _ _⟩
  | some p =>
    by_cases hp : p.src = p.dst
    · exact ⟨_, by rw [s.flow_loop hm v tag hr hp]⟩
    · by_cases hc : s.lin.isCleaning p.src = true ∨ s.lin.isCleaning p.dst = true
      · exact ⟨_, by rw [s.flow_cleaning hm v tag hr hp hc]; exact hun _ _⟩
      · obtain ⟨hc1, hc2⟩ := not_or.mp hc
        have hcase := hr ▸ Lineage.flowCase_routed hp (Bool.eq_false_iff.mpr hc1) (Bool.eq_false_iff.mpr hc2)
        refine ⟨fun f => if 1000000000 < v then { f with capped := true } else f, ?_⟩
        rw [s.flow_routed hm v tag hcase, ((FullFrame.refl _).transfer _ _ _ _).routing.meters,
          s.flowCap_eq hm v tag hcase]
        exact hun _ _

/-! ## The operation of a METER entry -/

/-- The step of a reading from the reference on, modulo the meter's width (R23). -/
def Meter.delta (x : Meter) (T : Nat) : Nat := (T % 2 ^ x.width + 2 ^ x.width - x.ref) % 2 ^ x.width

/-- The volume of a forward step (R25). -/
def Meter.volume (x : Meter) (T : Nat) : Nat := (x.delta T * x.num + x.residue) / x.den

/-- A meter after a forward step: the reference moves and the residue carries on (R25). -/
def Meter.forward (x : Meter) (T : Nat) : Meter :=
  { x with ref := T % 2 ^ x.width, residue := (x.delta T * x.num + x.residue) % x.den }

section meter

variable {s : State} {m T tag : Nat}

theorem State.opMeter_unconfigured (h : (s.lin.meter m).configured = false) : s.opMeter tag m T = s :=
  if_pos (by rw [h]; rfl)

theorem readMeterTotal_first {x : Meter} (hr : x.refValid = false) :
    readMeterTotal x T = .first { x with ref := T % 2 ^ x.width, refValid := true } :=
  if_pos (by rw [hr]; rfl)

theorem readMeterTotal_backward {x : Meter} (hr : x.refValid = true) (hd : 2 ^ (x.width - 1) ≤ x.delta T) :
    readMeterTotal x T = .backward { x with ref := T % 2 ^ x.width } x.ref (T % 2 ^ x.width) :=
  (if_neg (by rw [hr]; nofun)).trans (if_pos hd)

theorem readMeterTotal_forward {x : Meter} (hr : x.refValid = true) (hd : x.delta T < 2 ^ (x.width - 1)) :
    readMeterTotal x T = .forward (x.forward T) (x.volume T) :=
  (if_neg (by rw [hr]; nofun)).trans (if_neg (Nat.not_le_of_lt hd))

variable (h : (s.lin.meter m).configured = true)
include h

theorem State.opMeter_first (hr : (s.lin.meter m).refValid = false) : s.opMeter tag m T =
    s.setLin (s.lin.setMeter m { s.lin.meter m with ref := T % 2 ^ (s.lin.meter m).width, refValid := true }) := by
  refine (if_neg (by rw [h]; nofun)).trans ?_
  rw [readMeterTotal_first hr]

variable (hr : (s.lin.meter m).refValid = true)
include hr

/-- A backward step moves the reference and raises METER_STEP (R24). -/
theorem State.opMeter_backward (hd : 2 ^ ((s.lin.meter m).width - 1) ≤ (s.lin.meter m).delta T) :
    s.opMeter tag m T =
      (s.setLin (s.lin.setMeter m { s.lin.meter m with ref := T % 2 ^ (s.lin.meter m).width })).raise tag
        (s.lin.routeFiller m) (.meterStep m (s.lin.meter m).ref (T % 2 ^ (s.lin.meter m).width)) := by
  refine (if_neg (by rw [h]; nofun)).trans ?_
  rw [readMeterTotal_backward hr hd]

theorem State.opMeter_forward (hd : (s.lin.meter m).delta T < 2 ^ ((s.lin.meter m).width - 1)) :
    s.opMeter tag m T =
      if (s.lin.meter m).volume T = 0 then s.setLin (s.lin.setMeter m ((s.lin.meter m).forward T))
      else (s.setLin (s.lin.setMeter m ((s.lin.meter m).forward T))).flow m ((s.lin.meter m).volume T) tag := by
  refine (if_neg (by rw [h]; nofun)).trans ?_
  rw [readMeterTotal_forward hr hd]
  simp only [beq_iff_eq]

end meter

/-- A forward reading and the count of its volume, in the meter's record. -/
theorem Lineage.charged_setMeter (l : Lineage) (now : TimeStamp) {m : Nat} (hm : m < 48) (y : Meter) (v : Nat)
    (jump : Bool) (f : SegFlags → SegFlags) : (l.setMeter m y).charged now m v jump f =
      l.setMeter m { y with
        seg := { y.seg.counted now v with flags := f ((y.seg.counted now v).jumped jump) } } := by
  unfold Lineage.charged
  rw [Lineage.setMeter_same hm, Lineage.setMeter_setMeter]

theorem Segment.counted_vol (g : Segment) (now : TimeStamp) (v : Nat) :
    (g.counted now v).vol = if 2 ^ 48 - 1 < g.vol + v then v else g.vol + v := by
  unfold Segment.counted
  split <;> rfl

/-- The row of a METER entry whose operation is known. -/
theorem exec_meterEntry {s u : State} {e : TakenEntry} {m T : Nat} {ps : List Payload} (ht : Taken s e)
    (hv : e.val = .meter m T) (hu : s.opMeter e.tag m T = u) (hj : u.jrn = s.jrn.writeAll s.now e.tag ps) :
    ∃ t, exec .meterEntry s = .next t ∧ OpResult s t e.tag u.lin u.hold ps [] :=
  exec_row_of (o := { st := u }) ht (by rw [hv]; rfl) (by simp only [TakenEntry.operation, hv, hu]) hj

/-- Settles O29: the reading's four outcomes, and the count of a volume. -/
theorem meterReadingsScaleAndCarryTheResidue : Obligations.MeterReadingsScaleAndCarryTheResidue := by
  intro s e m T ht hv hm
  refine ⟨fun hc => ?none, fun hc hr => ?first, fun hc hr hd => ?back, fun hc hr hd h0 => ?zero,
    fun hc hr hd h0 => ?flow⟩
  case none => exact exec_meterEntry (ps := []) ht hv (State.opMeter_unconfigured hc) rfl
  case first => exact exec_meterEntry (ps := []) ht hv (State.opMeter_first hc hr) rfl
  case back =>
    exact exec_meterEntry ht hv
      ((State.opMeter_backward hc hr hd).trans (s.raise_setLin e.tag _ _ fun _ => rfl)) rfl
  case zero =>
    have hz : (s.lin.meter m).volume T = 0 := h0
    exact exec_meterEntry (ps := []) ht hv ((State.opMeter_forward hc hr hd).trans (if_pos hz)) rfl
  case flow =>
    have hz : (s.lin.meter m).volume T ≠ 0 := Nat.ne_of_gt h0
    obtain ⟨t, ps, hx, hres⟩ := exec_row_result ht
    have hop : e.operation s = { st := s.opMeter e.tag m T } := by simp only [TakenEntry.operation, hv]
    rw [hop, State.opMeter_forward hc hr hd, if_neg hz] at hres
    refine ⟨t, _, _, ps, by rw [hv] at hx; exact hx, hres, ?_⟩
    obtain ⟨f, hf⟩ := State.flow_meters (s.setLin (s.lin.setMeter m ((s.lin.meter m).forward T))) hm
      ((s.lin.meter m).volume T) e.tag
    have hown := (hf m).trans (by rw [State.setLin_lin, Lineage.charged_setMeter _ _ hm, Lineage.setMeter_same hm])
    refine ⟨⟨_, hown, Segment.counted_vol _ _ _⟩, fun k hkm => ?_⟩
    rw [hf k, State.setLin_lin, Lineage.charged_setMeter _ _ hm, Lineage.setMeter_ne (Ne.symm hkm)]

theorem State.raisedHold_setLin (s : State) {l : Lineage} (h : ∀ f, l.fillerVessel f = s.lin.fillerVessel f)
    (filler : Option Nat) (c : CondVals) : (s.setLin l).raisedHold filler c = s.raisedHold filler c ∧
      (s.setLin l).raisedRecs filler c = s.raisedRecs filler c := by
  have ht : ∀ p, l.latchTargets p filler = s.lin.latchTargets p filler := by
    intro p
    cases p <;> simp only [Lineage.latchTargets, h]
  simp only [State.raisedHold, State.raisedRecs, State.conditionRec, State.setLin_lin, State.setLin_hold, ht, and_self]

/-- Settles O30: the flow's equation in each case of R89. -/
theorem meteredVolumeGoesWhereTheRouteSays : Obligations.MeteredVolumeGoesWhereTheRouteSays := by
  intro s e m T ht hv hm x r delta v hc hr hd h0 jump limit above counted parties who u first
  let w := s.setLin (s.lin.setMeter m (x.forward T))
  have hop : s.opMeter e.tag m T = w.flow m v e.tag :=
    (State.opMeter_forward hc hr hd).trans (if_neg (Nat.ne_of_gt h0))
  have hx : w.lin.meter m = x.forward T := Lineage.setMeter_same hm _
  have hroute : (w.lin.meter m).route = x.route := by rw [hx]; rfl
  have hjump : ((w.lin.meter m).jumps v) = decide jump := by
    rw [hx, Bool.decide_and]
    rfl
  have hwho : w.lin.routeFiller m = who := by
    unfold Lineage.routeFiller
    rw [hroute]
    rfl
  have hcounted : ∀ f, w.lin.charged w.now m v ((w.lin.meter m).jumps v) f = counted f := fun f => by
    rw [hjump, State.setLin_lin, Lineage.charged_setMeter _ _ hm]
    simp only [Segment.jumped, decide_eq_true_eq]
    rfl
  have hraise := fun f c => State.raisedHold_setLin s (l := s.lin.setMeter m (x.forward T)) (fun _ => rfl) f c
  have hu : w.afterJump m v = u.setLin w.lin := by
    unfold State.afterJump
    rw [hjump, hwho, (hraise who _).1]
    simp only [decide_eq_true_eq]
    rfl
  have hfirst : w.chargeRecords m v = first := by
    unfold State.chargeRecords Lineage.limitRecords
    rw [hjump, hwho, (hraise who _).2, hx]
    simp only [decide_eq_true_eq]
    rfl
  have hraised := fun f c => State.raisedHold_setLin u (l := w.lin) (fun _ => rfl) f c
  refine ⟨fun hp => ?unrouted, fun p hp hsame => ?loop, fun p hp hne hcl => ?cleaning,
    fun p hp hne hc1 hc2 => ?routed⟩
  case unrouted =>
    have hflow := w.flow_unrouted hm v e.tag (hroute.trans hp)
    rw [hcounted, hfirst, hu, (hraised _ _).1, (hraised _ _).2] at hflow
    exact exec_meterEntry ht hv (hop.trans hflow) rfl
  case loop =>
    have hflow := w.flow_loop hm v e.tag (hroute.trans hp) hsame
    rw [hcounted, hfirst, hu] at hflow
    exact exec_meterEntry ht hv (hop.trans hflow) rfl
  case cleaning =>
    have hflow := w.flow_cleaning hm v e.tag (hroute.trans hp) hne hcl
    have hl : ∀ l : Lineage, l.setUncertainAll (if s.lin.isCleaning p.dst = true then [] else [p.dst]) =
        if s.lin.isCleaning p.dst = true then l else l.setUncertain p.dst := fun l => by split <;> rfl
    have hclean : w.lin.isCleaning p.dst = s.lin.isCleaning p.dst := rfl
    rw [hcounted, hfirst, hu, (hraised _ _).1, (hraised _ _).2, hclean, hl] at hflow
    exact exec_meterEntry ht hv (hop.trans hflow) rfl
  case routed =>
    intro l c before start moved
    have hcase : w.lin.flowCase (w.lin.meter m).route = .routed p.src p.dst := by
      rw [hroute, hp]
      exact Lineage.flowCase_routed hne hc1 hc2
    have hl : ∀ k : Lineage, k.setUncertainAll (if decide jump = true ∨ 1000000000 < v then [p.src, p.dst] else []) =
        if jump ∨ above then parties k p else k := fun k => by
      simp only [decide_eq_true_eq]
      split <;> rfl
    have hcap : (w.charge m v e.tag id).flowCap m p.src p.dst v e.tag = start := by
      rw [w.flowCap_eq hm v e.tag hcase, hcounted, hfirst, hu, (hraised _ _).1, (hraised _ _).2, hjump, hl]
      rfl
    have hmoved : s.opMeter e.tag m T = moved := by
      rw [hop, w.flow_routed hm v e.tag hcase, hcap, hjump, ← Bool.decide_or]
    obtain ⟨ps, hps, _⟩ := ((FullFrame.refl start).transfer (tag := e.tag) p.src p.dst (min v 1000000000)
      (decide (jump ∨ above))).op.jrn
    have hj : moved.jrn = s.jrn.writeAll s.now e.tag (before ++ ps) := by
      rw [Journal.writeAll_append]
      exact hps
    obtain ⟨t, hx, hres, hport⟩ := exec_row_ports (o := { st := moved }) ht (i := .meterEntry) (by rw [hv]; rfl)
      (by simp only [TakenEntry.operation, hv, hmoved]) hj
    exact ⟨t, ps, hx, hres, hport, hj⟩

end Sys2Proof.Machine

/-! The Telegram Decoder, O7: the match of a frame, the fields of an item, the offers, and the overrides, bit by
bit. -/

namespace Sys2Proof.Machine

open Sys2Proof

/-! ## The match -/

section matching

theorem matchesEntry_iff (e : MatchEntry) (station kind : Nat) : matchesEntry e station kind = true ↔
    e.valid = true ∧ e.base ≤ station ∧ station ≤ e.limit ∧ e.kind = kind := by
  simp only [matchesEntry, Bool.and_eq_true, decide_eq_true_eq, beq_iff_eq, and_assoc]

variable (d : Decoder) (station kind : Nat)

/-- A frame's station and kind match the entry at an index (R150). -/
def Decoder.hits (k : Nat) : Prop :=
  k < 64 ∧ (vget d.matchTable k matchEntryReset).valid = true ∧
    (vget d.matchTable k matchEntryReset).base ≤ station ∧ station ≤ (vget d.matchTable k matchEntryReset).limit ∧
    (vget d.matchTable k matchEntryReset).kind = kind

theorem Decoder.hits_iff {k : Nat} (hk : k < 64) :
    d.hits station kind k ↔ matchesEntry d.matchTable[k] station kind = true := by
  rw [matchesEntry_iff, Decoder.hits, vget_lt _ _ _ hk, and_iff_right hk]

theorem Decoder.findMatch_none (h : ∀ k, ¬ d.hits station kind k) : d.findMatch station kind = none := by
  unfold Decoder.findMatch
  refine List.find?_eq_none.mpr fun e he hm => ?_
  obtain ⟨k, hk, rfl⟩ := List.mem_iff_getElem.mp he
  have hk64 : k < 64 := by simpa using hk
  exact h k ((d.hits_iff station kind hk64).mpr hm)

theorem Decoder.findMatch_lowest {k : Nat} (hk : d.hits station kind k) (hlow : ∀ j, j < k → ¬ d.hits station kind j) :
    d.findMatch station kind = some (vget d.matchTable k matchEntryReset) := by
  have hk64 : k < 64 := hk.1
  unfold Decoder.findMatch
  refine List.find?_eq_some_iff_getElem.mpr ⟨?_, k, by simpa using hk64, ?_, fun j hj => ?_⟩
  · rw [vget_lt _ _ _ hk64]
    exact (d.hits_iff station kind hk64).mp hk
  · rw [vget_lt _ _ _ hk64]
    rfl
  · have hn := hlow j hj
    rw [d.hits_iff station kind (hj.trans hk64), Bool.not_eq_true] at hn
    rw [Bool.not_eq_true']
    exact hn

end matching

theorem numAt_of_le {l : List Byte} {off width : Nat} (h : off + width ≤ l.length) :
    numAt l off width = some (numAt! l off width) := by
  rw [numAt, bytesAt, if_pos h]
  rfl

theorem numAt_of_gt {l : List Byte} {off width : Nat} (h : ¬ off + width ≤ l.length) : numAt l off width = none := by
  rw [numAt, bytesAt, if_neg h]
  rfl

/-! ## The fields of an item -/

section fields

variable (payload : List Byte) (stride i : Nat)

/-- The bytes at a field's place for item `i`. -/
def fieldSlice (g : FieldSpec) : List Byte := (payload.drop (g.off + i * stride)).take g.width

/-- A field that is not extracted, or lies in the payload. -/
def fieldFits (g : FieldSpec) : Prop := g.width = 0 ∨ g.off + i * stride + g.width ≤ payload.length

theorem fieldBytes_of_fits {g : FieldSpec} (h : fieldFits payload stride i g) :
    fieldBytes payload stride i g = some (fieldSlice payload stride i g) := by
  unfold fieldBytes fieldSlice
  by_cases hw : g.width = 0
  · rw [if_pos (beq_iff_eq.mpr hw), hw, List.take_zero]
  · rw [if_neg (by simpa using hw), bytesAt, if_pos (h.resolve_left hw)]

theorem fieldBytes_of_not_fits {g : FieldSpec} (h : ¬ fieldFits payload stride i g) : fieldBytes payload stride i g = none := by
  obtain ⟨hw, hl⟩ := not_or.mp h
  unfold fieldBytes
  rw [if_neg (by simpa using hw), bytesAt, if_neg hl]

theorem mapM_fieldBytes_of_fits (gs : List FieldSpec) (h : ∀ g ∈ gs, fieldFits payload stride i g) :
    gs.mapM (fieldBytes payload stride i) = some (gs.map (fun g => fieldSlice payload stride i g)) := by
  induction gs with
  | nil => rfl
  | cons g gs ih =>
    rw [List.mapM_cons, fieldBytes_of_fits _ _ _ (h g List.mem_cons_self),
      ih fun x hx => h x (List.mem_cons_of_mem g hx)]
    rfl

theorem mapM_fieldBytes_of_not_fits (gs : List FieldSpec) (h : ∃ g ∈ gs, ¬ fieldFits payload stride i g) :
    gs.mapM (fieldBytes payload stride i) = none := by
  induction gs with
  | nil => obtain ⟨g, hg, _⟩ := h; cases hg
  | cons g gs ih =>
    rw [List.mapM_cons]
    by_cases hg : fieldFits payload stride i g
    · rw [fieldBytes_of_fits _ _ _ hg, ih (by
        obtain ⟨x, hx, hn⟩ := h
        exact ⟨x, (List.mem_cons.mp hx).resolve_left fun e => hn (e ▸ hg), hn⟩)]
      rfl
    · rw [fieldBytes_of_not_fits _ _ _ hg]
      rfl

variable {payload stride i} {gs : List FieldSpec}

/-- The k-th field's bytes, none beyond the fields. -/
theorem fieldAt_bytes (k : Nat) : fieldAt (gs.map (fun g => fieldSlice payload stride i g)) k =
    fieldSlice payload stride i (gs.getD k ⟨0, 0⟩) := by
  have h0 : fieldSlice payload stride i ⟨0, 0⟩ = [] := List.take_zero
  unfold fieldAt
  rw [← h0, List.getD_map]

/-- An optional field is absent when it is not extracted. -/
theorem fieldOpt_bytes (hfit : ∀ g ∈ gs, fieldFits payload stride i g) (k : Nat) :
    fieldOpt (gs.map (fun g => fieldSlice payload stride i g)) k =
      if (gs.getD k ⟨0, 0⟩).width = 0 then none else some (beNat (fieldSlice payload stride i (gs.getD k ⟨0, 0⟩))) := by
  have hg : fieldFits payload stride i (gs.getD k ⟨0, 0⟩) := by
    by_cases hk : k < gs.length
    · rw [List.getD_eq_getElem _ _ hk]
      exact hfit _ (List.getElem_mem hk)
    · rw [List.getD_eq_default _ _ (Nat.le_of_not_lt hk)]
      exact .inl rfl
  have hempty : (fieldSlice payload stride i (gs.getD k ⟨0, 0⟩)).isEmpty = decide ((gs.getD k ⟨0, 0⟩).width = 0) := by
    generalize gs.getD k ⟨0, 0⟩ = g at hg
    rw [Bool.eq_iff_iff, List.isEmpty_iff_length_eq_zero, decide_eq_true_eq, fieldSlice, List.length_take,
      List.length_drop]
    unfold fieldFits at hg
    omega
  simp only [fieldOpt, fieldNum, fieldAt_bytes, hempty, decide_eq_true_eq]

end fields

/-! ## The overrides (R153) -/

section overrides

variable (c b : Nat)

/-- An enabled slot for a cluster that forces a bit. -/
def overrideForces (o : Override) : Prop := o.enable = true ∧ o.cluster = c ∧ o.mask.getLsbD b = true

theorem applyOverride_of_forces {o : Override} (h : overrideForces c b o) (v : Word16) :
    (applyOverride c v o).getLsbD b = o.forced.getLsbD b := by
  obtain ⟨he, hc, hm⟩ := h
  unfold applyOverride
  rw [if_pos (by simp [he, hc])]
  rw [BitVec.getLsbD_or, BitVec.getLsbD_and, BitVec.getLsbD_and, BitVec.getLsbD_not, hm]
  simp

theorem applyOverride_of_not_forces {o : Override} (h : ¬ overrideForces c b o) (v : Word16) :
    (applyOverride c v o).getLsbD b = v.getLsbD b := by
  unfold applyOverride
  split
  · rename_i ho
    simp only [Bool.and_eq_true, beq_iff_eq] at ho
    have hm : o.mask.getLsbD b = false := Bool.eq_false_iff.mpr fun hm => h ⟨ho.1, ho.2, hm⟩
    rw [BitVec.getLsbD_or, BitVec.getLsbD_and, BitVec.getLsbD_and, BitVec.getLsbD_not, hm]
    by_cases hb : b < 16
    · simp [hb]
    · simp [BitVec.getLsbD_of_ge _ _ (Nat.le_of_not_lt hb)]
  · rfl

theorem foldl_applyOverride_of_not_forces (os : List Override) (h : ∀ o ∈ os, ¬ overrideForces c b o) (v : Word16) :
    (os.foldl (applyOverride c) v).getLsbD b = v.getLsbD b := by
  induction os generalizing v with
  | nil => rfl
  | cons o os ih =>
    rw [List.foldl_cons, ih fun x hx => h x (List.mem_cons_of_mem o hx),
      applyOverride_of_not_forces c b (h o List.mem_cons_self)]

/-- The last slot that forces a bit gives it. -/
theorem foldl_applyOverride_of_last {os : List Override} {k : Nat} (hk : k < os.length) (hf : overrideForces c b os[k])
    (hlast : ∀ j, ∀ hj : j < os.length, k < j → ¬ overrideForces c b os[j]) (v : Word16) :
    (os.foldl (applyOverride c) v).getLsbD b = os[k].forced.getLsbD b := by
  have hsplit : os = os.take k ++ os[k] :: os.drop (k + 1) := by rw [← List.drop_eq_getElem_cons, List.take_append_drop]
  have hrest : ∀ o ∈ os.drop (k + 1), ¬ overrideForces c b o := by
    intro o ho
    obtain ⟨j, hj, rfl⟩ := List.mem_iff_getElem.mp ho
    rw [List.getElem_drop]
    exact hlast _ _ (by omega)
  conv_lhs => rw [hsplit]
  rw [List.foldl_append, List.foldl_cons, foldl_applyOverride_of_not_forces c b _ hrest, applyOverride_of_forces c b hf]

end overrides

/-! ## Frames and items -/

section frames

variable {s : State} {f : Frame} (h0 : s.dec.filter.etherType ≠ 0) (heq : Frame.etherType f = s.dec.filter.etherType)
include h0 heq

/-- A process frame's station and kind fields are read. -/
theorem State.decodeFrame_process : s.decodeFrame f =
    match numAt (Frame.payload f) s.dec.filter.stationOff s.dec.filter.stationWidth,
        numAt (Frame.payload f) s.dec.filter.kindOff 1 with
    | some station, some kind =>
      match s.dec.findMatch station kind with
      | none => s.setDec { s.dec with unmatched := tick32 s.dec.unmatched }
      | some e => s.decodeMatched e (Frame.payload f)
    | _, _ => s.countShort :=
  if_neg (by simp [h0, heq])

theorem State.decodeFrame_short
    (hn : ¬ (s.dec.filter.stationOff + s.dec.filter.stationWidth ≤ (Frame.payload f).length ∧
      s.dec.filter.kindOff + 1 ≤ (Frame.payload f).length)) : s.decodeFrame f = s.countShort := by
  rw [State.decodeFrame_process h0 heq]
  by_cases hs : s.dec.filter.stationOff + s.dec.filter.stationWidth ≤ (Frame.payload f).length
  · rw [numAt_of_le hs, numAt_of_gt fun hk => hn ⟨hs, hk⟩]
  · rw [numAt_of_gt hs]

theorem State.decodeFrame_matched
    (hf : s.dec.filter.stationOff + s.dec.filter.stationWidth ≤ (Frame.payload f).length ∧
      s.dec.filter.kindOff + 1 ≤ (Frame.payload f).length) : s.decodeFrame f =
    match s.dec.findMatch (numAt! (Frame.payload f) s.dec.filter.stationOff s.dec.filter.stationWidth)
        (numAt! (Frame.payload f) s.dec.filter.kindOff 1) with
    | none => s.setDec { s.dec with unmatched := tick32 s.dec.unmatched }
    | some e => s.decodeMatched e (Frame.payload f) := by
  rw [State.decodeFrame_process h0 heq, numAt_of_le hf.1, numAt_of_le hf.2]

end frames

/-- An item of any class but VALVE is counted and offered. -/
theorem State.offerDecoded_of_ne_valve (s : State) {v : EntryVal} (h : ∀ c x, v ≠ .valve c x) (a : TimeStamp) :
    s.offerDecoded v a = (s.countOffer.offerItem v a).1.settle := by
  cases v with
  | valve c x => exact absurd rfl (h c x)
  | _ => rfl

/-- Settles O7: the lowest match, the fields in the payload, the offer of each class, the overrides. -/
theorem processFramesAreDecodedByTheirMatch : Obligations.ProcessFramesAreDecodedByTheirMatch := by
  intro f s d bytes station kind hit fits
  refine ⟨fun h => ?skip, fun h0 heq => ⟨fun hn => ?short, fun hf hno => ?unmatched, fun hf k hk hlow => ?hit⟩, ?item,
    ?bits⟩
  case skip => exact if_pos (by simpa using h)
  case short => exact State.decodeFrame_short h0 heq hn
  case unmatched =>
    rw [State.decodeFrame_matched h0 heq hf, Decoder.findMatch_none _ _ _ hno]
    rfl
  case hit =>
    rw [State.decodeFrame_matched h0 heq hf, Decoder.findMatch_lowest _ _ _ hk hlow]
    rfl
  case item =>
    intro e arrival i counted obj raw n opt offered
    refine ⟨?_, fun hlen hfit => ?_⟩
    · rintro ⟨g, hg, hw, hl⟩
      have hnone : itemFields e bytes i = none := mapM_fieldBytes_of_not_fits _ _ _ _ ⟨g, hg, by
        unfold fieldFits
        omega⟩
      unfold State.decodeItem
      rw [hnone]
      rfl
    · have hitem : State.decodeItem e bytes arrival s i =
          s.offerDecoded (itemValue e.cls e.volUnit obj (e.fields.map (fun g => fieldSlice bytes e.stride i g))) arrival := by
        unfold State.decodeItem
        rw [show itemFields e bytes i = _ from mapM_fieldBytes_of_fits _ _ _ _ hfit]
      have hat : ∀ k, fieldAt (e.fields.map (fun g => fieldSlice bytes e.stride i g)) k = raw k := fun k =>
        fieldAt_bytes k
      have hnum : ∀ k, fieldNum (e.fields.map (fun g => fieldSlice bytes e.stride i g)) k = n k := fun k =>
        congrArg beNat (hat k)
      have hopt : ∀ k, fieldOpt (e.fields.map (fun g => fieldSlice bytes e.stride i g)) k = opt k := fun k =>
        fieldOpt_bytes hfit k
      have hother : ∀ {c v}, e.cls = c → (∀ k x, v ≠ .valve k x) →
          itemValue c e.volUnit obj (e.fields.map (fun g => fieldSlice bytes e.stride i g)) = v → offered v :=
        fun hc hv hval => by
          subst hc hval
          exact hitem.trans (s.offerDecoded_of_ne_valve hv arrival)
      refine ⟨fun hc => hother hc nofun ?meter, fun hc => hother hc nofun ?manifest, fun hc => hother hc nofun ?select,
        fun hc => hother hc nofun rfl, fun hc => hother hc nofun ?reject, fun hc => hother hc nofun rfl,
        fun hc => hother hc nofun rfl, fun hc => hother hc nofun ?opening, fun hc => hother hc nofun rfl,
        fun hc => hother hc nofun ?carton, fun hc => hother hc nofun ?dispatch, fun hc => ?valve⟩
      case manifest =>
        have hunit : ∀ u x, toCentilitres u x = x * (match u with | .cl => 1 | .dl => 10 | .litre => 100) :=
          fun u x => by cases u <;> simp [toCentilitres]
        simp only [itemValue, manifestItem, hnum, hopt, hunit]
        rfl
      case valve =>
        intro v r
        rw [hc] at hitem
        simp only [itemValue, hnum] at hitem
        refine ⟨fun hl => ?_, fun hl hr => ?_, fun hl hr => ?_⟩
        · exact hitem.trans (if_pos (beq_iff_eq.mpr hl))
        · refine hitem.trans ((if_neg (by simpa using hl)).trans ?_)
          exact congrArg State.settle (if_neg (Bool.eq_false_iff.mp hr))
        · refine hitem.trans ((if_neg (by simpa using hl)).trans ?_)
          exact congrArg State.settle (if_pos hr)
      all_goals simp only [itemValue, hnum, hat]
  case bits =>
    intro c v b slot forces
    have hlen : d.overrides.toList.length = 4 := by simp
    have hslot : ∀ k (hk : k < 4), d.overrides.toList[k]'(hlen.symm ▸ hk) = slot k := fun k hk => by
      rw [Vector.getElem_toList]
      exact (vget_lt _ _ _ hk).symm
    refine ⟨fun k hk hlast => ?_, fun hno => ?_⟩
    · have hk4 : k < 4 := hk.1
      rw [← hslot k hk4]
      refine foldl_applyOverride_of_last c b _ (by rw [hslot k hk4]; exact hk.2) (fun j hj hkj => ?_) v
      rw [hslot j (hlen ▸ hj)]
      exact fun hf => hlast j hkj ⟨hlen ▸ hj, hf⟩
    · refine foldl_applyOverride_of_not_forces c b _ (fun o ho => ?_) v
      obtain ⟨j, hj, rfl⟩ := List.mem_iff_getElem.mp ho
      rw [hslot j (hlen ▸ hj)]
      exact fun hf => hno j ⟨hlen ▸ hj, hf⟩

end Sys2Proof.Machine

/-! LOAD_VESSEL, O19: its checks in the order of R3, and the parts of its effect (R4). -/

namespace Sys2Proof.Machine

open Sys2Proof

/-! ## The checks (R3) -/

section checks

variable (l : Lineage) (v : Nat) (cfg : VesselCfg)

theorem Lineage.indexTaken_iff : l.indexTaken v cfg = true ↔ ∃ u, u < 64 ∧ u ≠ v ∧ match cfg with
    | .bay i _ => (l.vessel u).kind = .bay ∧ (l.vessel u).bayIndex = i
    | .filler i .. => (l.vessel u).kind = .filler ∧ (l.vessel u).fillerIndex = i
    | _ => False := by
  cases cfg <;> simp [Lineage.indexTaken, List.any_eq_true, and_assoc]

theorem vesselCfg_inRange_iff : cfg.inRange = true ↔ match cfg with
    | .unconfigured => True
    | .store cap => 1 ≤ cap ∧ cap ≤ 500000000
    | .bay i tolerance => i ≤ 7 ∧ tolerance ≤ 100
    | .filler i n coder port timeout product =>
      i ≤ 7 ∧ n ≤ 99 ∧ coder < 2 ^ 48 ∧ port ≤ 1 ∧ timeout ≤ 3600 ∧ product ≤ 65535
    | .unknown _ => False := by
  cases cfg <;> simp [VesselCfg.inRange, and_assoc]
  exact fun _ => Iff.rfl

theorem Vessel.changes_eq (x : Vessel) : x.changes cfg = match cfg with
    | .unconfigured => decide (x.kind ≠ .unconfigured)
    | .store _ => decide (x.kind ≠ .store)
    | .bay i _ => decide (x.kind ≠ .bay ∨ x.bayIndex ≠ i)
    | .filler i .. => decide (x.kind ≠ .filler ∨ x.fillerIndex ≠ i)
    | .unknown _ => false := by
  cases cfg with
  | bay i t => simp only [Vessel.changes, Bool.not_and, Bool.decide_or, decide_not, beq_eq_decide]
  | filler i n c p t a => simp only [Vessel.changes, Bool.not_and, Bool.decide_or, decide_not, beq_eq_decide]
  | unconfigured => simp only [Vessel.changes, bne, decide_not, beq_eq_decide]
  | store c => simp only [Vessel.changes, bne, decide_not, beq_eq_decide]
  | unknown k => rfl

theorem bankNames_iff (b : Vector RouteEntry 128) : bankNames b v = true ↔
    ∃ i, i < 128 ∧ (vget b i {}).valid = true ∧ ((vget b i {}).src = v ∨ (vget b i {}).dst = v) := by
  unfold bankNames
  rw [List.any_eq_true]
  simp only [Bool.and_eq_true, Bool.or_eq_true, beq_iff_eq]
  constructor
  · rintro ⟨e, he, h⟩
    obtain ⟨i, hi, rfl⟩ := List.mem_iff_getElem.mp he
    have hi128 : i < 128 := by simpa using hi
    exact ⟨i, hi128, by rw [vget_lt _ _ _ hi128]; exact h⟩
  · rintro ⟨i, hi, h⟩
    rw [vget_lt _ _ _ hi] at h
    exact ⟨_, by simp, h⟩

theorem Ring.occupied_ne_nil (r : Ring) : r.occupied ≠ [] ↔ ∃ k, k < 6 ∧ (r.slot k).tag ≠ .empty := by
  unfold Ring.occupied
  simp only [ne_eq, List.filter_eq_nil_iff, List.mem_range, bne_iff_ne, not_forall, not_not, exists_prop]

theorem Lineage.inUse_iff : l.inUse v = true ↔
    ((l.vessel v).kind = .store ∧ (l.vessel v).state = .holding ∧ (l.vessel v).list ≠ []) ∨
      ((l.vessel v).kind = .bay ∧ ∃ k, k < 6 ∧ ((l.ring (l.vessel v).bayIndex).slot k).tag ≠ .empty) ∨
      ((l.vessel v).kind = .filler ∧ ((l.filler (l.vessel v).fillerIndex).state = .batchOpen ∨
        (l.filler (l.vessel v).fillerIndex).ring ≠ [])) ∨
      ∃ i, i < 128 ∧ (l.activeEntry i).valid = true ∧ ((l.activeEntry i).src = v ∨ (l.activeEntry i).dst = v) := by
  rw [← Ring.occupied_ne_nil]
  unfold Lineage.inUse
  rw [Bool.or_eq_true, bankNames_iff]
  cases hk : (l.vessel v).kind <;> simp [Lineage.activeEntry]

end checks

/-! ## The effect (R4) -/

section effect

variable (l : Lineage) (v : Nat) (cfg : VesselCfg)

/-- The entry that a LOAD_VESSEL leaves. -/
theorem Lineage.applyLoadVessel_vessels : (l.applyLoadVessel v cfg).vessels = vset l.vessels v
    ((if (l.vessel v).changes cfg then freshVessel cfg else l.vessel v).configure cfg) := by
  have hparts : (l.freshParts cfg).vessels = l.vessels := by cases cfg <;> rfl
  simp only [Lineage.applyLoadVessel]
  split
  · split
    · rw [Lineage.setVessel_vessels, hparts]
    · obtain ⟨a, b, hs, _⟩ := Lineage.spoilInactive_eq
        ((l.freshParts cfg).setVessel v ((freshVessel cfg).configure cfg)) v cfg.vesselKind
      rw [hs]
      change vset (l.freshParts cfg).vessels v _ = _
      rw [hparts]
  · rfl

/-- The rings and the filler records that a LOAD_VESSEL leaves are those of its fresh parts. -/
theorem Lineage.applyLoadVessel_parts :
    (l.applyLoadVessel v cfg).rings = (if (l.vessel v).changes cfg then l.freshParts cfg else l).rings ∧
    (l.applyLoadVessel v cfg).fillers = (if (l.vessel v).changes cfg then l.freshParts cfg else l).fillers := by
  simp only [Lineage.applyLoadVessel]
  split
  · split
    · exact ⟨rfl, rfl⟩
    · obtain ⟨a, b, hs, _⟩ := Lineage.spoilInactive_eq
        ((l.freshParts cfg).setVessel v ((freshVessel cfg).configure cfg)) v cfg.vesselKind
      rw [hs]
      exact ⟨rfl, rfl⟩
  · exact ⟨rfl, rfl⟩

/-- An entry whose kind and index stay is not changed in the sense of R3. -/
theorem Vessel.kind_of_not_changes {x : Vessel} (hin : cfg.inRange = true) (h : x.changes cfg = false) :
    x.kind = cfg.vesselKind := by
  cases cfg with
  | unknown k => cases hin
  | unconfigured => exact not_not.mp fun hn => Bool.eq_false_iff.mp h (bne_iff_ne.mpr hn)
  | store c => exact not_not.mp fun hn => Bool.eq_false_iff.mp h (bne_iff_ne.mpr hn)
  | bay i t =>
    simp only [Vessel.changes, Bool.not_eq_false', Bool.and_eq_true, beq_iff_eq] at h
    exact h.1
  | filler i n c p t a =>
    simp only [Vessel.changes, Bool.not_eq_false', Bool.and_eq_true, beq_iff_eq] at h
    exact h.1

/-- The bank that is not active loses the entries that the vessel's new kind forbids. -/
theorem Lineage.applyLoadVessel_inactive (hin : cfg.inRange = true) :
    (l.applyLoadVessel v cfg).bank l.active.other =
      if (l.vessel v).kind = cfg.vesselKind then l.bank l.active.other
      else spoilBank (l.bank l.active.other) v cfg.vesselKind := by
  have hparts : ∀ k, (l.freshParts cfg).bank k = l.bank k ∧ (l.freshParts cfg).active = l.active := by
    intro k
    cases cfg <;> cases k <;> exact ⟨rfl, rfl⟩
  obtain ⟨hbank, hactive⟩ := hparts l.active.other
  have hset : ∀ (m : Lineage) x k, (m.setVessel v x).bank k = m.bank k := fun m x k => by cases k <;> rfl
  have hspoil : ∀ m : Lineage, (m.spoilInactive v cfg.vesselKind).bank m.active.other =
      spoilBank (m.bank m.active.other) v cfg.vesselKind := by
    intro m
    unfold Lineage.spoilInactive
    cases ha : m.active <;> rfl
  cases hc : (l.vessel v).changes cfg with
  | false =>
    rw [if_pos (Vessel.kind_of_not_changes cfg hin hc)]
    unfold Lineage.applyLoadVessel
    simp only [hc, Bool.false_eq_true, if_false, hset]
  | true =>
    unfold Lineage.applyLoadVessel
    simp only [hc, if_true, beq_iff_eq]
    by_cases hk : (l.vessel v).kind = cfg.vesselKind
    · rw [if_pos hk, if_pos hk, hset, hbank]
    · rw [if_neg hk, if_neg hk]
      have := hspoil ((l.freshParts cfg).setVessel v ((freshVessel cfg).configure cfg))
      rw [hset, Lineage.setVessel_active, hactive, hbank] at this
      exact this

/-- An entry of a bank from which a vessel's new kind has been banned. -/
theorem vget_spoilBank (b : Vector RouteEntry 128) (k : VesselKind) {i : Nat} (hi : i < 128) :
    vget (spoilBank b v k) i {} =
      if (vget b i {}).forbids v k = true then { vget b i {} with valid := false } else vget b i {} := by
  unfold spoilBank
  rw [vget_map (d := {}) (h := hi)]
  generalize vget b i {} = e
  obtain ⟨valid, m, src, dst, n, c1, c2⟩ := e
  cases valid
  · exact (ite_self _).symm
  · rfl

theorem forbids_vesselKind_iff (e : RouteEntry) :
    e.forbids v cfg.vesselKind = true ↔ match cfg with
      | .store _ => False
      | .bay .. => e.dst = v
      | .filler .. => e.src = v
      | _ => e.src = v ∨ e.dst = v := by
  cases cfg <;> simp [RouteEntry.forbids, VesselCfg.vesselKind]

/-- The configuration fields of an entry in one table, 0 in those of the other kinds. -/
theorem Vessel.configure_eq (x : Vessel) : cfg.inRange = true → x.configure cfg =
    (let bare : Vessel :=
      { kind := .unconfigured, capacity := 0, bayIndex := 0, tolerance := 0, fillerIndex := 0, fillerNumber := 0,
        coderAddr := 0, coderPort := .a, idleTimeout := 0, autoProduct := 0, state := x.state, list := x.list,
        cat := x.cat, uncertain := x.uncertain, suspect := x.suspect }
    match cfg with
    | .store cap => { bare with kind := .store, capacity := cap }
    | .bay i t => { bare with kind := .bay, bayIndex := i, tolerance := t }
    | .filler i n coder p timeout product =>
      { bare with kind := .filler, fillerIndex := i, fillerNumber := n, coderAddr := coder,
                  coderPort := if p = 1 then .b else .a, idleTimeout := timeout, autoProduct := product }
    | _ => bare) := by
  intro hin
  cases cfg with
  | unknown k => cases hin
  | filler i n coder p timeout product =>
    have hp : (portOfByte p).getD .a = if p = 1 then .b else .a := by
      unfold portOfByte
      by_cases h0 : p = 0
      · subst h0; rfl
      · by_cases h1 : p = 1
        · subst h1; rfl
        · simp [h0, h1]
    unfold Vessel.configure
    dsimp only
    rw [hp]
    rfl
  | _ => rfl

theorem Vessel.configure_kind (x : Vessel) (hin : cfg.inRange = true) : (x.configure cfg).kind = cfg.vesselKind := by
  cases cfg with
  | unknown k => cases hin
  | _ => rfl

theorem freshVessel_eq : freshVessel cfg = match cfg with
    | .store _ => { state := .unseeded, list := [], cat := some 0, uncertain := true, suspect := false }
    | .bay .. => { state := .holding, list := [], cat := none, uncertain := false, suspect := false }
    | .filler .. => { state := .holding, list := [], cat := none, uncertain := false, suspect := false }
    | _ => { state := .unseeded, list := [], cat := none, uncertain := false, suspect := false } := by
  cases cfg <;> rfl

theorem freshParts_rings (b : Bool) : (if b = true then l.freshParts cfg else l).rings = match cfg with
    | .bay i _ => if b = true then vset l.rings i { slots := Vector.replicate 6 {}, fill := 0, disch := 0 } else l.rings
    | _ => l.rings := by
  cases cfg <;> cases b <;> rfl

theorem freshParts_fillers (b : Bool) : (if b = true then l.freshParts cfg else l).fillers = match cfg with
    | .filler i .. =>
      if b = true then vset l.fillers i
        { state := .idle, lastCarton := 0, seen := false, seq := 1, lastFlow := ⟨0, 0, 0⟩, timer := none,
          pendingIdle := none, ring := [] }
      else l.fillers
    | _ => l.fillers := by
  cases cfg <;> cases b <;> rfl

end effect

/-- Settles O19: the checks in their order, and the effect part by part. -/
theorem loadVesselChecksThenConfigures : Obligations.LoadVesselChecksThenConfigures := by
  intro h v cfg s p hi hw replied x inRange taken changes used
  have hrange : cfg.inRange = true ↔ inRange := vesselCfg_inRange_iff cfg
  have htaken : s.lin.indexTaken v cfg = true ↔ taken := s.lin.indexTaken_iff v cfg
  have hchanges : x.changes cfg = changes := x.changes_eq cfg
  have hused : s.lin.inUse v = true ↔ used := s.lin.inUse_iff v
  have refused : ∀ st, s.lin.checkLoadVessel v cfg = st → st ≠ .done → replied s.lin st := fun st hst hne =>
    exec_between (.loadVessel v cfg) rfl p hi hw (by
      simp only [State.applyBetween, State.loadVessel, hst, beq_iff_eq, hne, if_false])
  have harg : v ≤ 63 → inRange → ¬ (decide (63 < v) || !cfg.inRange) = true := fun hv hr => by
    rw [hrange.mpr hr, decide_eq_false (Nat.not_lt.mpr hv)]
    nofun
  refine ⟨fun hb => refused _ (if_pos ?_) (by decide),
    fun hv hr ht => refused _ ((if_neg (harg hv hr)).trans (if_pos (htaken.mpr ht))) (by decide),
    fun hv hr ht hc hu => refused _ ((if_neg (harg hv hr)).trans ((if_neg (htaken.not.mpr ht)).trans (if_pos ?_)))
      (by decide), fun hv hr ht hcu => ?_⟩
  · rw [Bool.or_eq_true, decide_eq_true_eq, Bool.not_eq_true', ← Bool.not_eq_true, hrange]
    exact hb
  · rw [Bool.and_eq_true, hused]
    exact ⟨hchanges.trans hc, hu⟩
  intro fresh c bare entry forbidden
  have hdone : s.lin.checkLoadVessel v cfg = .done := by
    refine (if_neg (harg hv hr)).trans ((if_neg (htaken.not.mpr ht)).trans (if_neg ?_))
    rw [Bool.and_eq_true, hused]
    rintro ⟨hc, hu⟩
    rcases hcu with hn | hn
    · exact Bool.eq_false_iff.mp (hchanges.trans hn) hc
    · exact hn hu
  have hin : cfg.inRange = true := hrange.mpr hr
  refine ⟨s.lin.applyLoadVessel v cfg, exec_between (.loadVessel v cfg) rfl p hi hw ?_, ?vessels, ?rings, ?fillers,
    ?active, fun i hi => ?inactive, ?others⟩
  · simp only [State.applyBetween, State.loadVessel, hdone, beq_self_eq_true, if_true]
    rfl
  case vessels =>
    have hc : (if x.changes cfg = true then freshVessel cfg else x) = c :=
      hchanges ▸ congrArg (fun y => if changes = true then y else x) (freshVessel_eq cfg)
    refine (s.lin.applyLoadVessel_vessels v cfg).trans (congrArg (vset s.lin.vessels v) ?_)
    exact (congrArg (fun y => Vessel.configure y cfg) hc).trans (Vessel.configure_eq cfg c hin)
  case rings =>
    exact (s.lin.applyLoadVessel_parts v cfg).1.trans (hchanges ▸ freshParts_rings s.lin cfg (x.changes cfg))
  case fillers =>
    exact (s.lin.applyLoadVessel_parts v cfg).2.trans (hchanges ▸ freshParts_fillers s.lin cfg (x.changes cfg))
  case active =>
    obtain ⟨_, _, _, _, _, _, hb⟩ := s.lin.applyLoadVessel_eq v cfg
    exact hb
  case inactive =>
    intro e f
    have hkind : entry.kind = cfg.vesselKind :=
      (congrArg Vessel.kind (Vessel.configure_eq cfg c hin).symm).trans (Vessel.configure_kind cfg c hin)
    have hforbid : e.forbids v cfg.vesselKind = true ↔ forbidden e := forbids_vesselKind_iff v cfg e
    rw [hkind, ← hforbid]
    have hf : f = _ := congrArg (fun b => vget b i {}) (s.lin.applyLoadVessel_inactive v cfg hin)
    by_cases hk : x.kind = cfg.vesselKind
    · rw [if_pos hk] at hf
      exact ⟨fun h => absurd hk h.1, fun _ => hf⟩
    · rw [if_neg hk, vget_spoilBank v _ _ hi] at hf
      exact ⟨fun h => hf.trans (if_pos h.2), fun h => hf.trans (if_neg fun hfb => h ⟨hk, hfb⟩)⟩
  case others =>
    obtain ⟨_, _, _, _, _, he, _⟩ := s.lin.applyLoadVessel_eq v cfg
    rw [he]

end Sys2Proof.Machine

/-! BATCH_CLOSE and IDLE_CLOSE, O56; HOLD_RELEASE, O60; MANUAL_TRANSFER, O49. -/

namespace Sys2Proof.Machine

open Sys2Proof

/-! ## The close of a batch (R110) -/

section close

variable {x : Filler} {older : List Batch} {b : Batch}

theorem Filler.openBatch_concat (hx : x.state = .batchOpen) (hr : x.ring = older ++ [b]) : x.openBatch = some b := by
  rw [Filler.openBatch, hx, hr, List.getLast?_concat]
  rfl

theorem Filler.openBatch_some (h : x.openBatch = some b) : x.state = .batchOpen ∧ x.ring.getLast? = some b := by
  unfold Filler.openBatch at h
  split at h
  · rename_i hx
    exact ⟨beq_iff_eq.mp hx, h⟩
  · cases h

theorem Filler.idleCloseDue_iff (x : Filler) (serial : Nat) (expiry : TimeStamp) : x.idleCloseDue serial expiry = true ↔
    ∃ b, x.openBatch = some b ∧ b.serial = serial ∧ x.lastFlow.le expiry = true := by
  unfold Filler.idleCloseDue
  cases x.openBatch <;> simp

/-- The close of the newest batch of a ring. -/
theorem State.closeBatch_concat {s : State} {f : Nat} (hx : (s.lin.filler f).state = .batchOpen)
    (hr : (s.lin.filler f).ring = older ++ [b]) (reason : CloseReason) (tag : Nat) (expiry : Option TimeStamp)
    (next : FillerState) : s.closeBatch f reason tag expiry next =
      { s with
        lin := s.lin.setFiller f { s.lin.filler f with
          state := next, timer := none, ring := older ++ [b.closedAs s.now reason] }
        jrn := s.jrn.writeAll s.now tag [.batchClosed (b.closedAs s.now reason) expiry] } := by
  simp only [State.closeBatch, Filler.openBatch_concat hx hr]
  rw [hr, modifyLast_concat]
  rfl

end close

section batches

variable {s : State} {f : Nat} {v : Nat}

theorem State.opBatchClose_unknown (h : s.lin.fillerVessel f = none) (tag : Nat) :
    s.opBatchClose tag f = s.write tag (.batchCloseRefused .badArgument f) := by
  simp only [State.opBatchClose, h]

theorem State.opBatchClose_known (h : s.lin.fillerVessel f ≠ none) (tag : Nat) : s.opBatchClose tag f =
    if (s.lin.filler f).state = .batchOpen then s.closeBatch f .telegram tag none .idle
    else s.write tag (.batchCloseRefused .busy f) := by
  obtain ⟨v, hv⟩ := Option.ne_none_iff_exists'.mp h
  simp only [State.opBatchClose, hv, beq_iff_eq]

end batches

/-- Settles O56: each close is the one equation of a close, its refusals one record. -/
theorem batchesCloseOnCommandAndWhenIdle : Obligations.BatchesCloseOnCommandAndWhenIdle := by
  intro s e f ht x ended closes
  have hend : ∀ {u ps}, e.operation s = { st := u } → u.jrn = s.jrn.writeAll s.now e.tag ps → u.hold = s.hold →
      ended u.lin ps := fun {u ps} hop hj hh => by
    have := exec_row_of ht rfl hop hj
    rwa [hh] at this
  refine ⟨fun hv => ?close, fun serial expiry hv => ?idle⟩
  case close =>
    have hop : ∀ {u}, s.opBatchClose e.tag f = u → e.operation s = { st := u } := fun hu => by
      simp only [TakenEntry.operation, hv, hu]
    refine ⟨fun hn => hend (u := s.write e.tag _) (hop (State.opBatchClose_unknown hn _)) rfl rfl, fun hn hx => ?_, fun hn hx older b hr => ?_⟩
    · exact hend (u := s.write e.tag _) (hop ((State.opBatchClose_known hn _).trans (if_neg hx))) rfl rfl
    · exact hend (hop (((State.opBatchClose_known hn _).trans (if_pos hx)).trans
        (State.closeBatch_concat hx hr _ _ _ _))) rfl rfl
  case idle =>
    intro due
    have hdue : x.idleCloseDue serial expiry = true ↔ due := x.idleCloseDue_iff serial expiry
    have hop : ∀ {u}, s.opIdleClose e.tag f serial expiry = u → e.operation s = { st := u } := fun hu => by
      simp only [TakenEntry.operation, hv, hu]
    refine ⟨fun hn => ?_, fun hd older b hr => ?_⟩
    · exact hend (ps := []) (hop (if_neg (mt hdue.mp hn))) rfl rfl
    · obtain ⟨y, hy, _⟩ := id hd
      exact hend (hop ((if_pos (hdue.mpr hd)).trans
        (State.closeBatch_concat (Filler.openBatch_some hy).1 hr _ _ _ _))) rfl rfl

/-! ## HOLD_RELEASE (R138, R139) -/

/-- The holds an argument of HOLD_RELEASE names, with the encodings of R138. -/
theorem holdsNamed_eq {a : Nat} (h : a ≤ 7 ∨ a = 0xFE ∨ a = 0xFD) : holdsNamed a =
    some ((List.range 9).filter (fun i => decide ((a = i ∧ i < 8) ∨ (a = 0xFE ∧ i < 8) ∨ (a = 0xFD ∧ i = 8)))) := by
  rcases h with h | rfl | rfl
  · interval_cases a <;> rfl
  · rfl
  · rfl

theorem holdsNamed_none {a : Nat} (h7 : 7 < a) (hE : a ≠ 0xFE) (hD : a ≠ 0xFD) : holdsNamed a = none := by
  unfold holdsNamed
  rw [if_neg (Nat.not_le.mpr h7), if_neg (by simpa using hE), if_neg (by simpa using hD)]

theorem HoldUnit.latch_unlatch (is : List Nat) (h : HoldUnit) {i : Nat} (hi : i < 9) :
    (h.unlatch is).latch i = if i ∈ is then 0 else h.latch i := by
  induction is generalizing h with
  | nil => rfl
  | cons k is ih =>
    change (HoldUnit.unlatch { h with latches := vset h.latches k 0 } is).latch i = _
    rw [ih]
    by_cases hmem : i ∈ is
    · rw [if_pos hmem, if_pos (List.mem_cons_of_mem _ hmem)]
    · rw [if_neg hmem]
      by_cases hki : k = i
      · subst hki
        rw [if_pos List.mem_cons_self]
        exact vget_vset_same (h := hi) ..
      · rw [if_neg (by simpa [hmem] using Ne.symm hki)]
        exact vget_vset_ne (h := hki) ..

theorem HoldUnit.unlatch_others (is : List Nat) (h : HoldUnit) :
    h.unlatch is = { h with latches := (h.unlatch is).latches } := by
  induction is generalizing h with
  | nil => rfl
  | cons k is ih => exact ih { h with latches := vset h.latches k 0 }

/-- Settles O60: the holds named are emptied and stand as released; the records are those of every result. -/
theorem holdReleaseEmptiesLatches : Obligations.HoldReleaseEmptiesLatches := by
  intro s e a ht hv named
  have hop : ∀ {u is}, s.opHoldRelease e.tag a = (u, is) → e.operation s = { st := u, released := is } := fun hu => by
    simp only [TakenEntry.operation, hv, hu]
  refine ⟨fun ha => ?done, fun h7 hE hD => ?bad⟩
  case bad =>
    have hu : s.opHoldRelease e.tag a = (s.write e.tag (.hold
        { hold := a, action := .release, result := .badArgument, before := {}, after := {}, batch := none }), []) := by
      simp only [State.opHoldRelease, holdsNamed_none h7 hE hD]
    exact exec_row_of ht (by rw [hv]; rfl) (hop hu) rfl
  case done =>
    let is := (List.range 9).filter (fun i => decide (named i))
    have his : ∀ i, i < 9 → (i ∈ is ↔ named i) := fun i hi => by simp [is, hi]
    have hnamed : holdsNamed a = some is := holdsNamed_eq ha
    have hu : s.opHoldRelease e.tag a = (s.setHold (s.hold.unlatch is), is) := by
      simp only [State.opHoldRelease, hnamed]
    obtain ⟨t, hx, hr⟩ := exec_row_of (ps := []) ht rfl (hop hu) rfl
    rw [hv] at hx
    refine ⟨t, _, hx, hr, HoldUnit.unlatch_others _ _, fun i hi => ?_, ?_⟩
    · exact (HoldUnit.latch_unlatch is s.hold hi).trans (if_congr (his i hi) rfl rfl)
    · rw [hr.jrn, List.nil_append, List.append_nil]
      refine congrArg (fun ps => (s.jrn.writeAll s.mgmt.clock e.tag ps).publish) ?_
      unfold holdRecords
      have hfilter : (List.range 9).filter (fun i => decide (i ∈ is ∨ s.hold.view i ≠ t.hold.view i)) =
          (List.range 9).filter (fun i => decide (named i ∨ s.hold.view i ≠ t.hold.view i)) :=
        List.filter_congr fun i hi => decide_eq_decide.mpr (or_congr (his i (List.mem_range.mp hi)) Iff.rfl)
      rw [hfilter]
      refine List.map_congr_left fun i hi => ?_
      have hi9 : i < 9 := List.mem_range.mp (List.mem_filter.mp hi).1
      simp only [his i hi9]
      rfl

/-! ## MANUAL_TRANSFER (R44) -/

theorem Lineage.checkManual_eq (l : Lineage) (src dst v : Nat) : l.checkManual src dst v =
    if 63 < src ∨ 63 < dst ∨ src = dst ∨ v = 0 ∨ 1000000000 < v ∨
        ((l.vessel src).kind ≠ .store ∧ (l.vessel src).kind ≠ .bay) ∨
        ((l.vessel dst).kind ≠ .store ∧ (l.vessel dst).kind ≠ .filler) then .badArgument
    else if l.isCleaning src = true ∨ l.isCleaning dst = true then .busy else .done := by
  simp only [Lineage.checkManual, Bool.or_eq_true, decide_eq_true_eq, beq_iff_eq, Bool.not_eq_true', Bool.or_eq_false_iff,
    beq_eq_false_iff_ne, or_assoc]
  rfl

theorem State.opManual_refused {s : State} {src dst v : Nat} {r : Status} (h : s.lin.checkManual src dst v = r)
    (hr : r ≠ .done) (tag : Nat) : s.opManual tag src dst v = (s.write tag (.manual r src dst v none), []) := by
  subst h
  exact if_neg (by simpa using hr)

/-- Settles O49: the checks of R44 in their order, or the transfer and its record behind the evaluation. -/
theorem manualTransferChecksThenMoves : Obligations.ManualTransferChecksThenMoves := by
  intro s e src dst v ht hv wrong cleaning
  have hop : ∀ {u ps}, s.opManual e.tag src dst v = (u, ps) → e.operation s = { st := u, after := ps } := fun hu => by
    simp only [TakenEntry.operation, hv, hu]
  have hcheck := s.lin.checkManual_eq src dst v
  refine ⟨fun hw => ?_, fun hw hc => ?_, fun hw hc => ?_⟩
  · have hr := hcheck.trans (if_pos hw)
    exact exec_row_of ht (by rw [hv]; rfl) (hop (State.opManual_refused hr nofun _)) rfl
  · have hr := (hcheck.trans (if_neg hw)).trans (if_pos hc)
    exact exec_row_of ht (by rw [hv]; rfl) (hop (State.opManual_refused hr nofun _)) rfl
  · intro moved
    have hr := (hcheck.trans (if_neg hw)).trans (if_neg hc)
    obtain ⟨ps, hj, _⟩ := (FullFrame.transfer src dst v false (FullFrame.refl (tag := e.tag) s)).op.jrn
    obtain ⟨t, hx, hres, hport⟩ := exec_row_ports ht rfl (hop (if_pos (beq_iff_eq.mpr hr))) hj
    rw [hv] at hx
    exact ⟨t, ps, hx, hres, hport, hj⟩

end Sys2Proof.Machine

/-! VESSEL_WRITE, O51: its checks in the order of R18, and its effect in one equation (R19). -/

namespace Sys2Proof.Machine

open Sys2Proof

/-! ## The checks of R18 -/

theorem noRepeat_iff (ks : List RawKey) : noRepeat ks = true ↔ ks.Nodup := by
  induction ks with
  | nil => simp [noRepeat]
  | cons k ks ih => simp [noRepeat, ih]

theorem catOfByte_isSome (n : Nat) : (catOfByte n).isSome = true ↔ n ≤ 7 ∨ n = 0xFF := by
  unfold catOfByte
  split
  · rename_i h
    simpa using .inr (beq_iff_eq.mp h)
  · rename_i h
    have hn : n ≠ 0xFF := by simpa using h
    split <;> simp_all

theorem flagOfByte_isSome (n : Nat) : (flagOfByte n).isSome = true ↔ n ≤ 1 := by
  unfold flagOfByte
  split
  · rename_i h
    simp [beq_iff_eq.mp h]
  · split
    · rename_i h
      simp [beq_iff_eq.mp h]
    · rename_i h0 h1
      simp only [beq_iff_eq] at h0 h1
      simp only [Option.isSome_none, Bool.false_eq_true, false_iff]
      omega

theorem writeEntry_valid_iff (e : WriteEntry) : e.valid = true ↔ e.key.toKey ≠ none ∧ e.vol ≠ 0 ∧ e.cat ≤ 7 := by
  simp only [WriteEntry.valid, Bool.and_eq_true, Option.isSome_iff_ne_none, bne_iff_ne, decide_eq_true_eq, and_assoc]

theorem writeArgs_valid_iff (w : WriteArgs) (capacity : Nat) : w.valid capacity = true ↔
    w.entries.length ≤ 12 ∧ (w.entries.map WriteEntry.key).Nodup ∧
      (∀ n ∈ w.entries, n.key.toKey ≠ none ∧ n.vol ≠ 0 ∧ n.cat ≤ 7) ∧ (w.cat ≤ 7 ∨ w.cat = 0xFF) ∧
      (w.cat = 0xFF → w.entries = []) ∧ total w.list ≤ capacity ∧ w.uncertain ≤ 1 := by
  have hempty : (!(w.cat == 0xFF && !w.entries.isEmpty)) = true ↔ (w.cat = 0xFF → w.entries = []) := by
    rw [Bool.not_eq_true', Bool.and_eq_false_imp, beq_iff_eq, Bool.not_eq_false', List.isEmpty_iff]
  simp only [WriteArgs.valid, Bool.and_eq_true, decide_eq_true_eq, noRepeat_iff, List.all_eq_true, writeEntry_valid_iff,
    catOfByte_isSome, hempty, flagOfByte_isSome, and_assoc]
  rfl

theorem Lineage.roomFor_iff (l : Lineage) (ks : List Key) : l.roomFor ks = true ↔
    (ks.filter l.newCollKey).length + l.colls.length ≤ max 2048 l.colls.length ∧
      (ks.filter l.newBlendKey).length + l.blends.length ≤ max 1024 l.blends.length := by
  have room : ∀ n c k : Nat, n ≤ c - k ↔ n + k ≤ max c k := fun n c k => by omega
  simp only [Lineage.roomFor, Bool.and_eq_true, decide_eq_true_eq]
  exact and_congr (room _ 2048 _) (room _ 1024 _)

section effect

variable (l : Lineage) (w : WriteArgs)

theorem Lineage.checkWrite_eq : l.checkWrite w =
    if (l.vessel w.vessel).kind ≠ .store then .badArgument
    else if (l.vessel w.vessel).state = .cleaning then .busy
    else if ¬ w.valid (l.vessel w.vessel).capacity = true then .badArgument
    else if ¬ l.roomFor (keysOf w.list) = true then .tableFull else .done := by
  simp only [Lineage.checkWrite, bne_iff_ne, beq_iff_eq, Bool.not_eq_true', Bool.not_eq_true]

theorem State.opVesselWrite_refused {s : State} {w : WriteArgs} {r : Status} (h : s.lin.checkWrite w = r)
    (hr : r ≠ .done) (tag : Nat) :
    s.opVesselWrite tag w = s.write tag (.vessel { vessel := w.vessel, action := .write, result := r }) := by
  subst h
  exact if_neg (by simpa using hr)

/-! ## The effect (R19) -/

/-- The lineage state with the opaque records of a write, its references gained and those of the old list
released. -/
def Lineage.writeRecords : Lineage :=
  ((w.entries.foldl Lineage.makeOpaque l).addRefs (keysOf w.list)).releaseAll (keysOf (l.vessel w.vessel).list)

theorem Lineage.writeRecords_eq : l.writeRecords w = l.withRecords (l.writeRecords w) := by
  have hopaque : ∀ (es : List WriteEntry) (m k : Lineage),
      es.foldl Lineage.makeOpaque (m.withRecords k) = m.withRecords (es.foldl Lineage.makeOpaque k) := by
    intro es
    induction es with
    | nil => intro m k; rfl
    | cons e es ih => intro m k; rw [List.foldl_cons, List.foldl_cons, Lineage.makeOpaque_withRecords, ih]
  conv_lhs => rw [Lineage.writeRecords, ← l.withRecords_self, hopaque, Lineage.addRefs_withRecords,
    Lineage.releaseAll_withRecords]
  rfl

/-- A STORE's flag is re-derived from its list. -/
theorem Lineage.rederive_store {v : Nat} (h : (l.vessel v).kind = .store) : l.rederive v =
    l.setVessel v { l.vessel v with suspect := l.listSuspect (keysOf (l.vessel v).list) } := by
  simp only [Lineage.rederive, h]

theorem Lineage.setVessel_setVessel (v : Nat) (x y : Vessel) : (l.setVessel v x).setVessel v y = l.setVessel v y := by
  simp only [Lineage.setVessel, vset_vset]

/-- A vessel set behind a change of the record tables. -/
theorem Lineage.setVessel_of_withRecords {l k : Lineage} (h : k = l.withRecords k) (v : Nat) (x : Vessel) :
    k.setVessel v x = { l with colls := k.colls, blends := k.blends, vessels := (k.setVessel v x).vessels } := by
  rw [h]
  rfl

theorem Lineage.applyWrite_eq (h : (l.vessel w.vessel).kind = .store) : l.applyWrite w =
    (l.writeRecords w).setVessel w.vessel { l.vessel w.vessel with
      state := .holding, list := w.list, cat := (catOfByte w.cat).getD none, uncertain := decide (w.uncertain = 1),
      suspect := (l.writeRecords w).listSuspect (keysOf w.list) } := by
  have hv : w.vessel < 64 := l.vessel_lt (by rw [h]; decide)
  unfold Lineage.applyWrite
  rw [flagSet_eq]
  change ((l.writeRecords w).setVessel w.vessel _).rederive w.vessel = _
  rw [Lineage.rederive_store _ (by rw [Lineage.setVessel_same hv]; exact h), Lineage.setVessel_same hv,
    Lineage.setVessel_setVessel]
  rfl

end effect

/-- Settles O51: the checks of R18 one by one, and the content replaced. -/
theorem vesselWriteReplacesTheContent : Obligations.VesselWriteReplacesTheContent := by
  intro s e w ht hv x fits room refused
  have hop : ∀ {u}, s.opVesselWrite e.tag w = u → e.operation s = { st := u } := fun hu => by
    simp only [TakenEntry.operation, hv, hu]
  have hcheck := s.lin.checkWrite_eq w
  have hfits : w.valid x.capacity = true ↔ fits := writeArgs_valid_iff w _
  have hroom : s.lin.roomFor (keysOf w.list) = true ↔ room := s.lin.roomFor_iff _
  have hrefused : ∀ r, s.lin.checkWrite w = r → r ≠ .done → refused r := fun r h hr =>
    exec_row_of (ps := [_]) ht (by rw [hv]; rfl) (hop (State.opVesselWrite_refused h hr e.tag)) rfl
  refine ⟨fun hk => hrefused _ (hcheck.trans (if_pos hk)) nofun, fun hk hc => hrefused _ ?_ nofun,
    fun hk hc hf => hrefused _ ?_ nofun, fun hk hc hf hr => hrefused _ ?_ nofun, fun hk hc hf hr => ?_⟩
  · rw [hcheck, if_neg (not_not.mpr hk), if_pos hc]
  · rw [hcheck, if_neg (not_not.mpr hk), if_neg hc, if_pos (mt hfits.mp hf)]
  · rw [hcheck, if_neg (not_not.mpr hk), if_neg hc, if_neg (not_not.mpr (hfits.mpr hf)), if_pos (mt hroom.mp hr)]
  · have hdone : s.lin.checkWrite w = .done := by
      rw [hcheck, if_neg (not_not.mpr hk), if_neg hc, if_neg (not_not.mpr (hfits.mpr hf)), if_neg (not_not.mpr (hroom.mpr hr))]
    have hv64 : w.vessel < 64 := s.lin.vessel_lt (by rw [hk]; decide)
    obtain ⟨_, _, _, hcat, _⟩ := hf
    obtain ⟨cat, hc7⟩ := Option.isSome_iff_exists.mp ((catOfByte_isSome w.cat).mpr hcat)
    obtain ⟨t, hx, hres⟩ := exec_row_of (ps := [_]) ht rfl (hop (if_pos (beq_iff_eq.mpr hdone))) rfl
    rw [hv] at hx
    refine ⟨t, s.lin.applyWrite w, cat, hx, hc7, ?_, ?_, fun u hu => ?_, ?_⟩
    · rw [hc7, flagSet_eq] at hres
      exact hres
    · rw [Lineage.applyWrite_eq _ _ hk, Lineage.setVessel_same hv64, hc7]
      rfl
    · rw [Lineage.applyWrite_eq _ _ hk, Lineage.setVessel_ne (Ne.symm hu), Lineage.writeRecords_eq]
      rfl
    · intro k
      rw [Lineage.applyWrite_eq _ _ hk]
      exact Lineage.setVessel_of_withRecords (Lineage.writeRecords_eq s.lin w) _ _

end Sys2Proof.Machine

/-! Compartment slots and vessels in cleaning: COMP_SELECT, COMP_DONE and COMP_REJECT, O54, CIP_START and CIP_END,
O52. Every close of a slot is one equation (R69). -/

namespace Sys2Proof.Machine

open Sys2Proof

/-- The row of an entry that only raises a condition. -/
theorem exec_row_raise {s : State} {e : TakenEntry} {filler : Option Nat} {c : CondVals} (ht : Taken s e)
    (hop : e.operation s = { st := s.raise e.tag filler c }) : ∃ t, exec e.val.row s = .next t ∧
      OpResult s t e.tag s.lin (s.raisedHold filler c) (s.raisedRecs filler c) [] :=
  exec_row_of ht rfl (hop.trans (congrArg (fun u => ({ st := u } : OpEnd)) (s.raise_setLin e.tag filler c fun _ => rfl))) rfl

/-! ## Slots of a ring -/

section ring

variable (r : Ring)

theorem Ring.discharging_some {r : Ring} {k : Nat} (h : r.discharging = some k) :
    k < 6 ∧ (r.slot k).tag = .discharging := by
  obtain ⟨hk, hp, _⟩ := find?_range_eq_some.mp h
  exact ⟨hk, beq_iff_eq.mp hp⟩

theorem Ring.matching_some {r : Ring} {tanker comp k : Nat} (h : r.matching tanker comp = some k) :
    k < 6 ∧ (r.slot k).tag ≠ .empty ∧ (r.slot k).tanker = tanker ∧ (r.slot k).comp = comp := by
  obtain ⟨hk, hp, _⟩ := find?_range_eq_some.mp h
  simpa only [Bool.and_eq_true, bne_iff_ne, beq_iff_eq, ne_eq, and_assoc] using And.intro hk hp

theorem Ring.slot_select {k : Nat} (hk : k < 6) (j : Nat) : (r.select k).slot j =
    if j = k then { r.slot k with tag := .discharging } else r.slot j :=
  Ring.slot_setSlot hk _

theorem Ring.slot_tagSlot {k : Nat} (hk : k < 6) (t : SlotTag) (j : Nat) : (r.tagSlot k t).slot j =
    if j = k then { r.slot k with tag := t } else r.slot j :=
  Ring.slot_setSlot hk _

/-- The slot that was DISCHARGING made LOADED. -/
def Ring.loadedAgain : Ring :=
  match r.discharging with
  | none => r
  | some j => r.tagSlot j .loaded

theorem Ring.slot_loadedAgain (j : Nat) : r.loadedAgain.slot j =
    if r.discharging = some j then { r.slot j with tag := .loaded } else r.slot j := by
  unfold Ring.loadedAgain
  cases h : r.discharging with
  | none => rfl
  | some i =>
    rw [Ring.slot_tagSlot _ (Ring.discharging_some h).1]
    by_cases e : j = i
    · rw [if_pos e, if_pos (congrArg some e.symm), e]
    · rw [if_neg e, if_neg fun h => e (Option.some.inj h).symm]

/-- The search for the next LOADED slot, and what it selects (R70). -/
theorem Ring.advance_spec {r : Ring} {k : Nat} {next : Option Nat}
    (h : (slotsFrom (k + 1)).find? (fun j => (r.slot j).tag == .loaded) = next) (hn : ∀ i, next = some i → i < 6) :
    (∀ j, (r.advance k).slot j = if some j = next then { r.slot j with tag := .discharging } else r.slot j) ∧
      (r.advance k).fill = r.fill ∧ (r.advance k).disch = next.getD r.disch := by
  subst h
  unfold Ring.advance
  cases hf : (slotsFrom (k + 1)).find? (fun j => (r.slot j).tag == .loaded) with
  | none => exact ⟨fun j => rfl, rfl, rfl⟩
  | some i =>
    refine ⟨fun j => ?_, rfl, rfl⟩
    rw [Ring.slot_select _ (hn i hf)]
    by_cases e : j = i
    · rw [if_pos e, if_pos (congrArg some e), e]
    · rw [if_neg e, if_neg fun h => e (Option.some.inj h)]

theorem Ring.loadedAgain_fill : r.loadedAgain.fill = r.fill := by
  unfold Ring.loadedAgain
  split <;> rfl

/-- A ring's suspect flag depends on the shares of its slots. -/
theorem Lineage.ringSuspect_eq (l : Lineage) : l.ringSuspect r =
    (List.range 6).any (fun k => l.listSuspect ((r.slot k).shares.map CompShare.key)) := by
  rw [Bool.eq_iff_iff, Lineage.ringSuspect, List.any_eq_true, List.any_eq_true]
  constructor
  · rintro ⟨c, hc, h⟩
    obtain ⟨k, hk, rfl⟩ := List.mem_iff_getElem.mp hc
    have hk6 : k < 6 := by simpa using hk
    exact ⟨k, List.mem_range.mpr hk6, by rw [Ring.slot, vget_lt _ _ _ hk6]; exact h⟩
  · rintro ⟨k, hk, h⟩
    have hk6 := List.mem_range.mp hk
    exact ⟨r.slot k, by rw [Ring.slot, vget_lt _ _ _ hk6]; simp, h⟩

theorem Lineage.ringSuspect_of_shares {r : Ring} {x : Ring} (l : Lineage) (h : ∀ k, k < 6 → (x.slot k).shares = (r.slot k).shares) :
    l.ringSuspect x = l.ringSuspect r := by
  rw [Lineage.ringSuspect_eq, Lineage.ringSuspect_eq, Bool.eq_iff_iff, List.any_eq_true, List.any_eq_true]
  exact exists_congr fun k => and_congr_right fun hk => by rw [h k (List.mem_range.mp hk)]

end ring

/-! ## The close of a slot (R69) -/

/-- The lineage state with slot `k` of the bay `v` closed. -/
def Lineage.slotClosed (l : Lineage) (v bay k : Nat) : Lineage :=
  let m := (l.withRecords (l.releaseAll (((l.ring bay).slot k).shares.map CompShare.key))).setRing bay
    ((l.ring bay).setSlot k {})
  m.setVessel v { l.vessel v with suspect := m.ringSuspect (m.ring bay) }

/-- A BAY's flag is re-derived from its ring. -/
theorem Lineage.rederive_bay {l : Lineage} {v : Nat} (h : (l.vessel v).kind = .bay) : l.rederive v =
    l.setVessel v { l.vessel v with suspect := l.ringSuspect (l.ring (l.vessel v).bayIndex) } := by
  simp only [Lineage.rederive, h]

section bays

variable {s : State} {v bay : Nat} (hk : (s.lin.vessel v).kind = .bay) (hi : (s.lin.vessel v).bayIndex = bay)
include hk hi

theorem State.closeSlot_eq (reason : SlotReason) (tag k : Nat) : s.closeSlot v bay reason tag k =
    { s with
      lin := s.lin.slotClosed v bay k
      jrn := s.jrn.writeAll s.now tag [s.compartmentRec v bay k reason] } := by
  unfold State.closeSlot
  dsimp only
  rw [State.write_lin, Lineage.releaseAll_eq]
  rw [Lineage.rederive_bay]
  · exact hi ▸ rfl
  · exact hk

end bays

section closed

variable {l : Lineage} {v bay k : Nat} (hb : bay < 8) (hv : v < 64) (hk : k < 6)
include hb hv hk

theorem Lineage.slotClosed_sound : SlotClosed l (l.slotClosed v bay k) v bay k none := by
  have hring : (l.slotClosed v bay k).ring bay = (l.ring bay).setSlot k {} := Lineage.setRing_same (l := l) hb _
  refine ⟨rfl, rfl, fun j hj => ?_, by rw [hring]; rfl, by rw [hring]; rfl, fun b hne => ?_, ?_, fun u hu => ?_, rfl⟩
  · rw [hring, Ring.slot_setSlot hk, if_neg (c := some j = none) nofun]
  · exact Lineage.setRing_ne (l := l) (Ne.symm hne) _
  · exact Lineage.setVessel_same hv _
  · exact Lineage.setVessel_ne (Ne.symm hu) _

/-- The slot closed, and the next LOADED one selected (R70). -/
theorem Lineage.slotClosed_advance (next : Option Nat)
    (hn : (slotsFrom (k + 1)).find? (fun j => j != k && ((l.ring bay).slot j).tag == .loaded) = next) :
    SlotClosed l ((l.slotClosed v bay k).setRing bay (((l.slotClosed v bay k).ring bay).advance k)) v bay k next := by
  have hc := l.slotClosed_sound hb hv hk
  generalize hm : l.slotClosed v bay k = m at hc
  have htag : ∀ j ∈ slotsFrom (k + 1), (((m.ring bay).slot j).tag == .loaded) =
      (j != k && ((l.ring bay).slot j).tag == .loaded) := fun j hj => by
    rw [hc.slots j (mem_slotsFrom.mp hj)]
    by_cases e : j = k
    · simp [e]
    · simp [e]
  have hfind : (slotsFrom (k + 1)).find? (fun j => ((m.ring bay).slot j).tag == .loaded) = next :=
    (List.find?_congr htag).trans hn
  have hne : next ≠ some k := fun e => by simpa using List.find?_some (hn.trans e)
  have hnext : ∀ i, next = some i → i < 6 := fun i hi => mem_slotsFrom.mp (List.mem_of_find?_eq_some (hn.trans hi))
  obtain ⟨hslot, hfill, hdisch⟩ := Ring.advance_spec hfind hnext
  have hring : (m.setRing bay ((m.ring bay).advance k)).ring bay = (m.ring bay).advance k := Lineage.setRing_same hb _
  refine ⟨hc.colls, hc.blends, fun j hj => ?_, by rw [hring, hfill, hc.fill], by rw [hring, hdisch, hc.disch]; rfl,
    fun b hne => (Lineage.setRing_ne (Ne.symm hne) _).trans (hc.rings b hne), ?_, hc.vessels, ?_⟩
  · rw [hring, hslot, hc.slots j hj]
    by_cases e : j = k
    · rw [if_pos e, if_pos e, if_neg (e ▸ Ne.symm hne)]
    · rw [if_neg e, if_neg e, if_neg (c := some j = none) nofun]
  · rw [hring, Lineage.ringSuspect_of_shares (r := m.ring bay)]
    · exact hc.vessel
    · intro j _
      rw [hslot]
      split <;> rfl
  · conv_lhs => rw [hc.others]
    rfl

end closed

section operations

variable {s : State} {v bay : Nat} (h : s.lin.bayVessel bay = some v) (tag : Nat)

theorem State.opCompSelect_none (h : s.lin.bayVessel bay = none) (tanker comp : Nat) :
    s.opCompSelect tag bay tanker comp = s.raiseUnknown tag none bay tanker comp .noBay := by
  simp only [State.opCompSelect, h]

theorem State.opCompDone_none (h : s.lin.bayVessel bay = none) :
    s.opCompDone tag bay = s.raiseUnknown tag none bay 0 0 .noBay := by
  simp only [State.opCompDone, h]

theorem State.opCompReject_none (h : s.lin.bayVessel bay = none) (tanker comp : Nat) :
    s.opCompReject tag bay tanker comp = s.raiseUnknown tag none bay tanker comp .noBay := by
  simp only [State.opCompReject, h]

include h

theorem State.opCompSelect_unmatched {tanker comp : Nat} (hm : (s.lin.ring bay).matching tanker comp = none) :
    s.opCompSelect tag bay tanker comp = s.raiseUnknown tag (some v) bay tanker comp .noMatch := by
  simp only [State.opCompSelect, h, hm]

theorem State.opCompSelect_matched {tanker comp k : Nat} (hm : (s.lin.ring bay).matching tanker comp = some k) :
    s.opCompSelect tag bay tanker comp = if ((s.lin.ring bay).slot k).tag = .discharging then s
      else s.setLin (s.lin.setRing bay ((s.lin.ring bay).loadedAgain.select k)) := by
  simp only [State.opCompSelect, h, hm, beq_iff_eq]
  rfl

theorem State.opCompDone_idle (hm : (s.lin.ring bay).discharging = none) :
    s.opCompDone tag bay = s.raiseUnknown tag (some v) bay 0 0 .notDischarging := by
  simp only [State.opCompDone, h, hm]

theorem State.opCompDone_discharging {k : Nat} (hm : (s.lin.ring bay).discharging = some k) :
    s.opCompDone tag bay = s.finishSlot v bay .done tag k := by
  simp only [State.opCompDone, h, hm]

theorem State.opCompReject_unmatched {tanker comp : Nat} (hm : (s.lin.ring bay).matching tanker comp = none) :
    s.opCompReject tag bay tanker comp = s.raiseUnknown tag (some v) bay tanker comp .noMatch := by
  simp only [State.opCompReject, h, hm]

theorem State.opCompReject_matched {tanker comp k : Nat} (hm : (s.lin.ring bay).matching tanker comp = some k) :
    s.opCompReject tag bay tanker comp = if ((s.lin.ring bay).slot k).tag = .discharging
      then s.finishSlot v bay .rejected tag k else s.closeSlot v bay .rejected tag k := by
  simp only [State.opCompReject, h, hm, beq_iff_eq]

theorem State.finishSlot_eq (reason : SlotReason) (k : Nat) : s.finishSlot v bay reason tag k =
    { s with
      lin := (s.lin.slotClosed v bay k).setRing bay (((s.lin.slotClosed v bay k).ring bay).advance k)
      jrn := s.jrn.writeAll s.now tag [s.compartmentRec v bay k reason] } := by
  obtain ⟨_, hk, hi⟩ := Lineage.bayVessel_some h
  unfold State.finishSlot
  rw [State.closeSlot_eq hk hi]
  rfl

end operations

/-- Settles O54: each operation is a raise, a selection or the close of one slot. -/
theorem compartmentsAreSelectedAndClosed : Obligations.CompartmentsAreSelectedAndClosed := by
  intro s e bay tanker comp ht hb ring ended unknown closes nextLoaded
  have hunknown : ∀ {v x y cause}, e.operation s = { st := s.raiseUnknown e.tag v bay x y cause } →
      unknown v x y cause := fun hop => exec_row_raise ht hop
  have hfinish : ∀ {v k reason}, s.lin.bayVessel bay = some v → k < 6 →
      e.operation s = { st := s.finishSlot v bay reason e.tag k } → closes v k reason (nextLoaded k) :=
    fun {v k reason} hv hk hop => ⟨_, exec_row_of ht rfl
      (hop.trans (congrArg (fun u => ({ st := u } : OpEnd)) (State.finishSlot_eq hv e.tag reason k))) rfl,
      Lineage.slotClosed_advance hb (Lineage.bayVessel_some hv).1 hk _ rfl⟩
  refine ⟨fun he => ?select, fun he => ?done, fun he => ?reject⟩
  case select =>
    have hop : ∀ {u}, s.opCompSelect e.tag bay tanker comp = u → e.operation s = { st := u } := fun hu => by
      simp only [TakenEntry.operation, he, hu]
    refine ⟨fun hn => hunknown (hop (State.opCompSelect_none _ hn _ _)), fun v hv => ⟨fun hm => ?_, fun k hm => ?_⟩⟩
    · exact hunknown (hop (State.opCompSelect_unmatched hv _ hm))
    · obtain ⟨hk, hne, _⟩ := Ring.matching_some hm
      have hu := State.opCompSelect_matched hv e.tag hm
      have hnd : (ring.slot k).tag = .loaded → (ring.slot k).tag ≠ .discharging := fun h => h ▸ nofun
      refine ⟨fun hd => ?_, fun hl => ⟨s.lin.setRing bay (ring.loadedAgain.select k), ?_, ?_⟩⟩
      · exact exec_row_of (ps := []) ht rfl (hop (hu.trans (if_pos hd))) rfl
      · exact exec_row_of (ps := []) ht rfl (hop (hu.trans (if_neg (hnd hl)))) rfl
      · rw [Lineage.setRing_same hb]
        refine ⟨fun j hj => ?_, ring.loadedAgain_fill, rfl, rfl⟩
        rw [Ring.slot_select _ hk, Ring.slot_loadedAgain, Ring.slot_loadedAgain]
        have hkd : ring.discharging ≠ some k := fun e => by
          rw [(Ring.discharging_some e).2] at hl
          cases hl
        by_cases e : j = k
        · rw [if_pos e, if_pos e, if_neg hkd, e]
        · rw [if_neg e, if_neg e]
  case done =>
    have hop : ∀ {u}, s.opCompDone e.tag bay = u → e.operation s = { st := u } := fun hu => by
      simp only [TakenEntry.operation, he, hu]
    refine ⟨fun hn => hunknown (hop (State.opCompDone_none _ hn)), fun v hv => ⟨fun hm => ?_, fun k hm => ?_⟩⟩
    · exact hunknown (hop (State.opCompDone_idle hv _ hm))
    · exact hfinish hv (Ring.discharging_some hm).1 (hop (State.opCompDone_discharging hv _ hm))
  case reject =>
    have hop : ∀ {u}, s.opCompReject e.tag bay tanker comp = u → e.operation s = { st := u } := fun hu => by
      simp only [TakenEntry.operation, he, hu]
    refine ⟨fun hn => hunknown (hop (State.opCompReject_none _ hn _ _)), fun v hv => ⟨fun hm => ?_, fun k hm => ?_⟩⟩
    · exact hunknown (hop (State.opCompReject_unmatched hv _ hm))
    · obtain ⟨hk, hne, _⟩ := Ring.matching_some hm
      obtain ⟨hv64, hkind, hidx⟩ := Lineage.bayVessel_some hv
      have hu := State.opCompReject_matched hv e.tag hm
      have hnd : (ring.slot k).tag = .loaded → (ring.slot k).tag ≠ .discharging := fun h => h ▸ nofun
      refine ⟨fun hd => hfinish hv hk (hop (hu.trans (if_pos hd))), fun hl => ?_⟩
      have hclose := (hu.trans (if_neg (hnd hl))).trans (State.closeSlot_eq hkind hidx .rejected e.tag k)
      exact ⟨_, exec_row_of ht rfl (hop hclose) rfl, Lineage.slotClosed_sound hb hv64 hk⟩

/-! ## Cleaning (R15 to R17, R76, R77, R112) -/

/-- A BAY in cleaning, its ring cleared (R76). -/
def Lineage.bayCleaned (l : Lineage) (v bay : Nat) : Lineage :=
  (l.setRing bay Ring.cleared).setVessel v { l.vessel v with state := .cleaning, uncertain := false, suspect := false }

/-- The keys of some slots of a ring. -/
def Ring.keysIn (r : Ring) (ks : List Nat) : List Key :=
  ks.flatMap (fun j => (r.slot j).shares.map CompShare.key)

theorem Lineage.releaseAll_append (l : Lineage) (xs ys : List Key) :
    l.releaseAll (xs ++ ys) = (l.releaseAll xs).releaseAll ys :=
  List.foldl_append ..

section cleaned

variable {l : Lineage} {v bay : Nat}

theorem Lineage.slotClosed_vessel (hv : v < 64) (k : Nat) : ((l.slotClosed v bay k).vessel v).kind = (l.vessel v).kind ∧
    ((l.slotClosed v bay k).vessel v).bayIndex = (l.vessel v).bayIndex := by
  rw [Lineage.slotClosed, Lineage.setVessel_same hv]
  exact ⟨rfl, rfl⟩

theorem Lineage.slotClosed_ring (k : Nat) : (l.slotClosed v bay k).ring bay =
    if bay < 8 then (l.ring bay).setSlot k {} else l.ring bay := by
  change (l.setRing bay ((l.ring bay).setSlot k {})).ring bay = _
  by_cases h : bay < 8
  · rw [Lineage.setRing_same h, if_pos h]
  · rw [if_neg h]
    simp [Lineage.ring, Lineage.setRing, vget, h]

/-- A slot closed makes no difference to what cleaning leaves, but for the records it releases. -/
theorem Lineage.bayCleaned_slotClosed (k : Nat) (m : Lineage) (hv : v < 64) :
    ((l.slotClosed v bay k).withRecords m).bayCleaned v bay = (l.withRecords m).bayCleaned v bay := by
  have hw : ((l.slotClosed v bay k).withRecords m).vessel v = (l.slotClosed v bay k).vessel v := rfl
  rw [Lineage.bayCleaned, hw]
  rw [show (l.slotClosed v bay k).vessel v = _ from Lineage.setVessel_same hv _]
  change ({ (l.withRecords m) with
    rings := vset (vset l.rings bay _) bay Ring.cleared
    vessels := vset (vset l.vessels v _) v _ } : Lineage) = _
  rw [vset_vset, vset_vset]
  rfl

end cleaned

/-- Slots closed one after another: their records, and of the rest only what cleaning overwrites. -/
theorem State.closeSlots_eq {v bay : Nat} (reason : SlotReason) (tag : Nat) (ks : List Nat) (hn : ks.Nodup) (s : State)
    (hk : (s.lin.vessel v).kind = .bay) (hi : (s.lin.vessel v).bayIndex = bay) (h6 : ∀ k ∈ ks, k < 6) :
    ∃ l, ks.foldl (State.closeSlot · v bay reason tag) s =
        { s with lin := l, jrn := s.jrn.writeAll s.now tag (ks.map (fun j => s.compartmentRec v bay j reason)) } ∧
      l.bayCleaned v bay =
        (s.lin.withRecords (s.lin.releaseAll ((s.lin.ring bay).keysIn ks))).bayCleaned v bay := by
  induction ks generalizing s with
  | nil => exact ⟨s.lin, rfl, rfl⟩
  | cons k ks ih =>
    obtain ⟨hnot, hn'⟩ := List.nodup_cons.mp hn
    have hv : v < 64 := s.lin.vessel_lt (by rw [hk]; decide)
    let u : State := { s with
      lin := s.lin.slotClosed v bay k, jrn := s.jrn.writeAll s.now tag [s.compartmentRec v bay k reason] }
    obtain ⟨hku, hiu⟩ := Lineage.slotClosed_vessel (l := s.lin) (bay := bay) hv k
    obtain ⟨l, hl, hclean⟩ := ih hn' u (hku.trans hk) (hiu.trans hi) fun j hj => h6 j (List.mem_cons_of_mem k hj)
    have hslot : ∀ j ∈ ks, (u.lin.ring bay).slot j = (s.lin.ring bay).slot j := fun j hj => by
      change ((s.lin.slotClosed v bay k).ring bay).slot j = _
      rw [Lineage.slotClosed_ring]
      split
      · rw [Ring.slot_setSlot (h6 k List.mem_cons_self), if_neg fun e : j = k => hnot (e ▸ hj)]
      · rfl
    have hrecs : ks.map (fun j => u.compartmentRec v bay j reason) = ks.map (fun j => s.compartmentRec v bay j reason) :=
      List.map_congr_left fun j hj => by simp only [State.compartmentRec, hslot j hj]
    have hkeys : (u.lin.ring bay).keysIn ks = (s.lin.ring bay).keysIn ks :=
      List.flatMap_congr fun j hj => by rw [hslot j hj]
    have hrel : u.lin.releaseAll ((s.lin.ring bay).keysIn ks) =
        u.lin.withRecords (s.lin.releaseAll ((s.lin.ring bay).keysIn (k :: ks))) := by
      rw [Ring.keysIn, Ring.keysIn, List.flatMap_cons, Lineage.releaseAll_append]
      exact Lineage.releaseAll_withRecords u.lin (s.lin.releaseAll _) _
    refine ⟨l, ?_, ?_⟩
    · rw [List.foldl_cons, State.closeSlot_eq hk hi]
      refine hl.trans ?_
      rw [hrecs]
      rfl
    · rw [hclean, hkeys, hrel]
      exact Lineage.bayCleaned_slotClosed k _ hv

section cipStart

variable {s : State} (tag v : Nat)

theorem State.storeCipStart_eq (h : (s.lin.vessel v).state ≠ .cleaning) : s.storeCipStart tag v =
    { s with
      lin := (s.lin.withRecords (s.lin.releaseAll (keysOf (s.lin.vessel v).list))).setVessel v { s.lin.vessel v with
        state := .cleaning, list := [], cat := none, uncertain := false, suspect := false }
      jrn := s.jrn.writeAll s.now tag [.vessel
        { vessel := v, action := .cipStart, result := .done, cat := (s.lin.vessel v).cat,
          content := total (s.lin.vessel v).list, list := (s.lin.vessel v).list }] } := by
  unfold State.storeCipStart
  dsimp only
  rw [if_neg (by simpa using h), State.write_lin, Lineage.releaseAll_eq]
  rfl

theorem State.bayCipStart_eq (hk : (s.lin.vessel v).kind = .bay) (h : (s.lin.vessel v).state ≠ .cleaning) :
    s.bayCipStart tag v = { s with
      lin := (s.lin.withRecords (s.lin.releaseAll ((s.lin.ring (s.lin.vessel v).bayIndex).keysIn
        (s.lin.ring (s.lin.vessel v).bayIndex).occupied))).bayCleaned v (s.lin.vessel v).bayIndex
      jrn := s.jrn.writeAll s.now tag ((s.lin.ring (s.lin.vessel v).bayIndex).occupied.map
          (fun j => s.compartmentRec v (s.lin.vessel v).bayIndex j .cleaned) ++
        [.vessel { vessel := v, action := .cipStart, result := .done,
                   count := (s.lin.ring (s.lin.vessel v).bayIndex).occupied.length }]) } := by
  obtain ⟨l, hl, hclean⟩ := State.closeSlots_eq (bay := (s.lin.vessel v).bayIndex) .cleaned tag
    (s.lin.ring (s.lin.vessel v).bayIndex).occupied (List.nodup_range.filter _) s hk rfl
    fun k hk => List.mem_range.mp (List.mem_filter.mp hk).1
  unfold State.bayCipStart
  dsimp only
  rw [if_neg (by simpa using h), hl, Journal.writeAll_append, ← hclean]
  rfl

theorem State.fillerCipStart_idle (h : (s.lin.filler (s.lin.vessel v).fillerIndex).state = .idle) :
    s.fillerCipStart tag v = { s with
      lin := s.lin.setFiller (s.lin.vessel v).fillerIndex
        { s.lin.filler (s.lin.vessel v).fillerIndex with state := .cleaning }
      jrn := s.jrn.writeAll s.now tag [.vessel { vessel := v, action := .cipStart, result := .done }] } := by
  simp only [State.fillerCipStart, h]
  rfl

theorem State.fillerCipStart_open {older : List Batch} {b : Batch}
    (h : (s.lin.filler (s.lin.vessel v).fillerIndex).state = .batchOpen)
    (hr : (s.lin.filler (s.lin.vessel v).fillerIndex).ring = older ++ [b]) : s.fillerCipStart tag v = { s with
      lin := s.lin.setFiller (s.lin.vessel v).fillerIndex { s.lin.filler (s.lin.vessel v).fillerIndex with
        state := .cleaning, timer := none, ring := older ++ [b.closedAs s.now .cip] }
      jrn := s.jrn.writeAll s.now tag
        [.batchClosed (b.closedAs s.now .cip) none, .vessel { vessel := v, action := .cipStart, result := .done }] } := by
  simp only [State.fillerCipStart, h]
  rw [State.closeBatch_concat h hr]
  rfl

theorem Lineage.isCleaning_filler {l : Lineage} {v : Nat} (hk : (l.vessel v).kind = .filler) :
    l.isCleaning v = true ↔ (l.filler (l.vessel v).fillerIndex).state = .cleaning := by
  simp only [Lineage.isCleaning, Lineage.vesselState, hk, beq_iff_eq]
  split <;> simp_all

theorem Lineage.isCleaning_other {l : Lineage} {v : Nat} (hk : (l.vessel v).kind ≠ .filler) :
    l.isCleaning v = true ↔ (l.vessel v).state = .cleaning := by
  unfold Lineage.isCleaning Lineage.vesselState
  split
  · contradiction
  · exact beq_iff_eq

/-- Where the vessel is in cleaning CIP_START is refused BUSY. -/
theorem State.opCipStart_busy (hk : (s.lin.vessel v).kind ≠ .unconfigured) (h : s.lin.isCleaning v = true) :
    s.opCipStart tag v = s.write tag (.vessel { vessel := v, action := .cipStart, result := .busy }) := by
  unfold State.opCipStart
  cases hkind : (s.lin.vessel v).kind with
  | unconfigured => exact absurd hkind hk
  | store =>
    exact if_pos (beq_iff_eq.mpr ((Lineage.isCleaning_other (hkind ▸ nofun)).mp h))
  | bay =>
    exact if_pos (beq_iff_eq.mpr ((Lineage.isCleaning_other (hkind ▸ nofun)).mp h))
  | filler =>
    simp only [State.fillerCipStart, (Lineage.isCleaning_filler hkind).mp h]

end cipStart

/-- Settles O52: for each kind of vessel the rule of its owner. -/
theorem cleaningActsByKind : Obligations.CleaningActsByKind := by
  refine ⟨fun s e v ht hv => ?start, fun s e v ht hv => ?fin⟩
  case start =>
    intro x result rec_
    have hresult : ∀ {u ps}, s.opCipStart e.tag v = u → u.jrn = s.jrn.writeAll s.now e.tag ps → u.hold = s.hold →
        result u.lin ps := fun {u ps} hu hj hh => by
      have := exec_row_of (i := .cipStartEntry) ht (by rw [hv]; rfl)
        (show e.operation s = { st := u } by simp only [TakenEntry.operation, hv, hu]) hj
      rwa [hh] at this
    have hkind : ∀ {k u}, x.kind = k → (match k with
        | .unconfigured => s.write e.tag (rec_ .badArgument)
        | .store => s.storeCipStart e.tag v
        | .bay => s.bayCipStart e.tag v
        | .filler => s.fillerCipStart e.tag v) = u → s.opCipStart e.tag v = u := fun hk hu => by
      subst hk
      exact hu
    refine ⟨fun hk => hresult (u := s.write e.tag _) (hkind hk rfl) rfl rfl,
      fun hc hk => hresult (u := s.write e.tag _) (State.opCipStart_busy _ _ hk hc) rfl rfl,
      fun hk hs => hresult (hkind hk (State.storeCipStart_eq _ _ hs)) rfl rfl,
      fun hk hs => hresult (hkind hk (State.bayCipStart_eq _ _ hk hs)) rfl rfl,
      fun hk hs => hresult (hkind hk (State.fillerCipStart_idle _ _ hs)) rfl rfl,
      fun hk b older hs hr => hresult (hkind hk (State.fillerCipStart_open _ _ hs hr)) rfl rfl⟩
  case fin =>
    intro x result
    have hresult : ∀ {u r}, s.opCipEnd e.tag v = u →
        u.jrn = s.jrn.writeAll s.now e.tag [.vessel { vessel := v, action := .cipEnd, result := r }] →
        u.hold = s.hold → result u.lin r := fun {u ps} hu hj hh => by
      have := exec_row_of (i := .cipEndEntry) ht (by rw [hv]; rfl)
        (show e.operation s = { st := u } by simp only [TakenEntry.operation, hv, hu]) hj
      rwa [hh] at this
    have hkind : ∀ {k u}, x.kind = k → (match k with
        | .unconfigured => s.write e.tag (.vessel { vessel := v, action := .cipEnd, result := .badArgument })
        | .store => s.storeCipEnd e.tag v
        | .bay => s.bayCipEnd e.tag v
        | .filler => s.fillerCipEnd e.tag v) = u → s.opCipEnd e.tag v = u := fun hk hu => by
      subst hk
      exact hu
    refine ⟨fun hk => hresult (u := s.write e.tag _) (hkind hk rfl) rfl rfl,
      fun hk hs => hresult (u := s.write e.tag _) (hkind hk (if_pos (beq_iff_eq.mpr hs))) rfl rfl,
      fun hk hs => hresult (hkind hk (if_neg (by simpa using hs))) rfl rfl,
      fun hk hs => hresult (u := s.write e.tag _) (hkind hk (if_neg (by simpa using hs))) rfl rfl,
      fun hk hs => hresult (hkind hk (if_pos (beq_iff_eq.mpr hs))) rfl rfl,
      fun hk hs => hresult (u := s.write e.tag _) (hkind hk (if_neg (by simpa using hs))) rfl rfl,
      fun hk hs => hresult (hkind hk (if_pos (beq_iff_eq.mpr hs))) rfl rfl⟩

end Sys2Proof.Machine

/-! MANIFEST, O53: the checks in the order of R63, and the admission of an item (R64, R65, R67). -/

namespace Sys2Proof.Machine

open Sys2Proof

/-! ## Residency and issued serials (R50) -/

section serials

variable (l : Lineage)

theorem Lineage.resident_coll (n : Nat) : l.resident (.coll n) = true ↔ ∃ c ∈ l.colls, c.2.serial = n := by
  simp only [Lineage.resident, Lineage.findColl, List.find?_isSome, beq_iff_eq]

theorem Lineage.resident_blend (n : Nat) : l.resident (.blend n) = true ↔ ∃ b ∈ l.blends, b.2.serial = n := by
  simp only [Lineage.resident, Lineage.findBlend, List.find?_isSome, beq_iff_eq]

theorem Lineage.issueColl_firstFree (hroom : l.colls.length < 268435455) (h1 : 1 ≤ l.collNext)
    (h2 : l.collNext ≤ 268435455) :
    FirstFreeSerial (fun n => ∃ x ∈ l.colls, x.2.serial = n) l.collNext l.issueColl := by
  have h := issueSerial_firstFree (fun n => l.resident (.coll n)) (l.colls.map (fun c => c.2.serial)) l.collNext
    (fun n hn => List.mem_map.mpr ((l.resident_coll n).mp hn)) ⟨h1, h2⟩ (by rwa [List.length_map])
  rw [List.length_map] at h
  simp only [Lineage.resident_coll] at h
  exact h

theorem Lineage.issueBlend_firstFree (hroom : l.blends.length < 268435455) (h1 : 1 ≤ l.blendNext)
    (h2 : l.blendNext ≤ 268435455) :
    FirstFreeSerial (fun n => ∃ x ∈ l.blends, x.2.serial = n) l.blendNext l.issueBlend := by
  have h := issueSerial_firstFree (fun n => l.resident (.blend n)) (l.blends.map (fun c => c.2.serial)) l.blendNext
    (fun n hn => List.mem_map.mpr ((l.resident_blend n).mp hn)) ⟨h1, h2⟩ (by rwa [List.length_map])
  rw [List.length_map] at h
  simp only [Lineage.resident_blend] at h
  exact h

end serials

/-! ## The checks of R63 -/

theorem ManifestItem.valid_iff (i : ManifestItem) : i.valid = true ↔
    i.tanker ≤ 65535 ∧ 1 ≤ i.comp ∧ i.comp ≤ 15 ∧ i.farm ≤ 16777215 ∧ i.cat ≤ 7 ∧ 1 ≤ i.vol ∧ i.vol ≤ 1000000000 := by
  simp only [ManifestItem.valid, Bool.and_eq_true, decide_eq_true_eq, and_assoc]
  rfl

theorem Ring.claimable_none (r : Ring) : r.claimable = none ↔ r.occupied.length = 6 := by
  have h6 : (List.range 6).length = 6 := List.length_range
  unfold Ring.claimable Ring.occupied
  rw [List.find?_eq_none]
  refine Iff.trans ?_ ((iff_of_eq (congrArg _ h6.symm)).trans List.length_filter_eq_length_iff).symm
  simp only [mem_slotsFrom, List.mem_range, beq_iff_eq, bne_iff_ne]

theorem Ring.occupied_le (r : Ring) : r.occupied.length ≤ 6 :=
  (List.length_filter_le _ _).trans (List.length_range (n := 6)).le

theorem Lineage.freeColls_zero (l : Lineage) : l.freeColls = 0 ↔ 2048 ≤ l.colls.length :=
  Nat.sub_eq_zero_iff_le

section checks

variable {s : State} {v : Nat} {i : ManifestItem} (tag : Nat) (taken : TimeStamp)

theorem State.opManifest_noBay (h : s.lin.bayVessel i.bay = none) :
    s.opManifest tag taken i = s.raise tag none (.compartmentUnknown (i.who none) .noBay) := by
  simp only [State.opManifest, h]

variable (h : s.lin.bayVessel i.bay = some v)
include h

theorem State.opManifest_invalid (hi : i.valid = false) :
    s.opManifest tag taken i = s.raise tag none (.compartmentUnknown (i.who (some v)) .invalidField) := by
  simp only [State.opManifest, h, hi, Bool.not_false, if_true]

variable (hi : i.valid = true)
include hi

theorem State.opManifest_cleaning (hc : s.lin.isCleaning v = true) :
    s.opManifest tag taken i = s.raise tag none (.bayRingFull (i.who (some v))) := by
  simp only [State.opManifest, h, hi, hc, Bool.not_true, Bool.false_eq_true, if_false, if_true]

variable (hc : s.lin.isCleaning v = false)
include hc

theorem State.opManifest_matched {k : Nat} (hm : (s.lin.ring i.bay).matching i.tanker i.comp = some k) :
    s.opManifest tag taken i = if 12 ≤ ((s.lin.ring i.bay).slot k).shares.length
      then s.raise tag none (.compartmentFull (i.who (some v)) k) else s.admitOrRefuse taken v k i false tag := by
  simp only [State.opManifest, h, hi, hc, hm, Bool.not_true, Bool.false_eq_true, if_false]
  rfl

theorem State.opManifest_full (hm : (s.lin.ring i.bay).matching i.tanker i.comp = none)
    (hf : (s.lin.ring i.bay).claimable = none) :
    s.opManifest tag taken i = s.raise tag none (.bayRingFull (i.who (some v))) := by
  simp only [State.opManifest, h, hi, hc, hm, hf, Bool.not_true, Bool.false_eq_true, if_false]

theorem State.opManifest_claims {k : Nat} (hm : (s.lin.ring i.bay).matching i.tanker i.comp = none)
    (hf : (s.lin.ring i.bay).claimable = some k) :
    s.opManifest tag taken i = s.admitOrRefuse taken v k i true tag := by
  simp only [State.opManifest, h, hi, hc, hm, hf, Bool.not_true, Bool.false_eq_true, if_false]

/-- An item with a place is admitted to a slot, or refused by steps 5 and 6. -/
theorem State.opManifest_placed
    (hp : (∃ k, (s.lin.ring i.bay).matching i.tanker i.comp = some k ∧ ((s.lin.ring i.bay).slot k).shares.length < 12) ∨
      ((s.lin.ring i.bay).matching i.tanker i.comp = none ∧ (s.lin.ring i.bay).occupied.length < 6)) :
    ∃ k claims, s.opManifest tag taken i = s.admitOrRefuse taken v k i claims tag := by
  rcases hp with ⟨k, hm, hlen⟩ | ⟨hm, hlen⟩
  · exact ⟨k, false, (State.opManifest_matched _ _ h hi hc hm).trans (if_neg (Nat.not_le.mpr hlen))⟩
  · obtain ⟨k, hk⟩ := Option.ne_none_iff_exists'.mp (mt (s.lin.ring i.bay).claimable_none.mp (Nat.ne_of_lt hlen))
    exact ⟨k, true, State.opManifest_claims _ _ h hi hc hm hk⟩

end checks

section admission

variable {s : State} (taken : TimeStamp) (v k : Nat) (i : ManifestItem) (claims : Bool) (tag : Nat)

theorem State.admitOrRefuse_eq : s.admitOrRefuse taken v k i claims tag =
    if 1000000000 < (s.lin.ring i.bay).content + i.vol then s.raise tag none (.overfill v i.vol)
    else if 2048 ≤ s.lin.colls.length then s.raise tag none (.collTableFull (i.who (some v)))
    else s.takeIn taken v k i claims tag := by
  simp only [State.admitOrRefuse, beq_iff_eq, Lineage.freeColls_zero]
  rfl

/-! ## The admission (R64, R65, R67) -/

/-- The ring that takes an item in. -/
def Ring.taking (r : Ring) (k : Nat) (i : ManifestItem) (sh : CompShare) (now : TimeStamp) (claims : Bool) : Ring :=
  if claims then r.claim k i sh now else r.append k sh

/-- The lineage state with an item taken in. -/
def Lineage.takenIn (l : Lineage) (v : Nat) (i : ManifestItem) (c : CollRec) (r : Ring) : Lineage :=
  let m := { l.addColl c with collNext := nextSerial c.serial }.setRing i.bay r
  m.setVessel v { l.vessel v with suspect := m.ringSuspect (m.ring i.bay) }

theorem Lineage.rederive_bayOf {l : Lineage} {v bay : Nat} (hk : (l.vessel v).kind = .bay)
    (hb : (l.vessel v).bayIndex = bay) :
    l.rederive v = l.setVessel v { l.vessel v with suspect := l.ringSuspect (l.ring bay) } :=
  hb ▸ Lineage.rederive_bay hk

theorem State.takeIn_eq (hk : (s.lin.vessel v).kind = .bay) (hb : (s.lin.vessel v).bayIndex = i.bay) :
    s.takeIn taken v k i claims tag =
      { s with
        lin := s.lin.takenIn v i (s.newColl taken i)
          ((s.lin.ring i.bay).taking k i ((s.newColl taken i).share i.vol) s.now claims)
        jrn := s.jrn.writeAll s.now tag [.collection (s.newColl taken i)] } := by
  unfold State.takeIn
  dsimp only
  rw [Lineage.rederive_bayOf (bay := i.bay)]
  · rfl
  · exact hk
  · exact hb

end admission

section taking

variable (r : Ring) {k : Nat} (i : ManifestItem) (sh : CompShare) (now : TimeStamp)

theorem Ring.slot_claim (hk : k < 6) (j : Nat) : (r.claim k i sh now).slot j = if j ≠ k then r.slot j else
    { tag := if r.discharging = none then .discharging else .loaded, tanker := i.tanker, comp := i.comp, shares := [sh],
      drawn := 0, openTime := now } := by
  have hslot : ∀ c : Slot, (r.setSlot k c).slot j = if j ≠ k then r.slot j else c := fun c => by
    rw [Ring.slot_setSlot hk, ite_not]
  unfold Ring.claim
  cases h : r.discharging with
  | some d => exact hslot _
  | none =>
    refine (Ring.slot_select _ hk j).trans ?_
    by_cases e : j = k
    · rw [if_pos e, if_neg (not_not.mpr e), if_pos rfl]
      change { (r.setSlot k _).slot k with tag := .discharging } = _
      rw [Ring.slot_setSlot hk, if_pos rfl]
    · rw [if_neg e, if_pos e]
      exact (hslot _).trans (if_pos e)

theorem Ring.slot_append (hk : k < 6) (j : Nat) : (r.append k sh).slot j = if j ≠ k then r.slot j else
    { r.slot j with shares := (r.slot j).shares ++ [sh] } := by
  rw [Ring.append, Ring.slot_setSlot hk]
  by_cases e : j = k
  · rw [if_pos e, if_neg (not_not.mpr e), e]
  · rw [if_neg e, if_pos e]

theorem Ring.claim_fill : (r.claim k i sh now).fill = (k + 1) % 6 := by
  unfold Ring.claim
  cases r.discharging <;> rfl

theorem Ring.claim_disch : (r.claim k i sh now).disch = if r.discharging = none then k else r.disch := by
  unfold Ring.claim
  cases r.discharging <;> rfl

theorem Ring.slot_taking (hk : k < 6) {claims : Bool} {p : Prop} [Decidable p] (hp : claims = decide p) (j : Nat) :
    (r.taking k i sh now claims).slot j =
      if j ≠ k then r.slot j else if p then
        { tag := if r.discharging = none then .discharging else .loaded, tanker := i.tanker, comp := i.comp,
          shares := [sh], drawn := 0, openTime := now }
      else { r.slot j with shares := (r.slot j).shares ++ [sh] } := by
  subst hp
  unfold Ring.taking
  by_cases h : p
  · rw [if_pos (decide_eq_true h), if_pos h, Ring.slot_claim _ _ _ _ hk]
  · rw [if_neg (by simpa using h), if_neg h, Ring.slot_append _ _ hk]

theorem Ring.taking_fill {claims : Bool} {p : Prop} [Decidable p] (hp : claims = decide p) :
    (r.taking k i sh now claims).fill = if p then (k + 1) % 6 else r.fill := by
  subst hp
  unfold Ring.taking
  by_cases h : p
  · rw [if_pos (decide_eq_true h), if_pos h, Ring.claim_fill]
  · rw [if_neg (by simpa using h), if_neg h]
    rfl

theorem Ring.taking_disch {claims : Bool} {p : Prop} [Decidable p] (hp : claims = decide p) :
    (r.taking k i sh now claims).disch = if p ∧ r.discharging = none then k else r.disch := by
  subst hp
  unfold Ring.taking
  by_cases h : p
  · rw [if_pos (decide_eq_true h), Ring.claim_disch]
    simp only [h, true_and]
  · rw [if_neg (by simpa using h), if_neg fun x => h x.1]
    rfl

end taking

/-- Settles O53: the checks of R63 one by one, and the one admission behind them. -/
theorem manifestsAreAdmittedOrRefused : Obligations.ManifestsAreAdmittedOrRefused := by
  have hop : ∀ {s : State} {e : TakenEntry} {i : ManifestItem} {u}, e.val = .manifest i →
      s.opManifest e.tag e.takenAt i = u → e.operation s = { st := u } := fun hv hu => by
    simp only [TakenEntry.operation, hv, hu]
  refine ⟨fun s e i ht hv => ?refusals, fun s e i v k ht hv hb hbay hvalid hclean hroom hcontent => ?admission⟩
  case refusals =>
    intro ring refused inRange
    have hraise : ∀ {c}, s.opManifest e.tag e.takenAt i = s.raise e.tag none c → refused c := fun hu => by
      have := exec_row_raise ht (hop hv hu)
      rwa [hv] at this
    refine ⟨fun hn => hraise (State.opManifest_noBay _ _ hn), fun v hb => ⟨fun hr => ?_, fun hr hc => ?_, fun hr hc => ?_⟩⟩
    · exact hraise (State.opManifest_invalid _ _ hb (Bool.eq_false_iff.mpr (mt i.valid_iff.mp hr)))
    · exact hraise (State.opManifest_cleaning _ _ hb (i.valid_iff.mpr hr) hc)
    · have hi := i.valid_iff.mpr hr
      refine ⟨fun k hm hlen => ?_, fun hm hlen => ?_, fun hp => ⟨fun hover => ?_, fun hfits htab => ?_⟩⟩
      · exact hraise ((State.opManifest_matched _ _ hb hi hc hm).trans (if_pos hlen))
      · exact hraise (State.opManifest_full _ _ hb hi hc hm (ring.claimable_none.mpr hlen))
      · obtain ⟨k, claims, hu⟩ := State.opManifest_placed e.tag e.takenAt hb hi hc hp
        rw [State.admitOrRefuse_eq, if_pos hover] at hu
        exact hraise hu
      · obtain ⟨k, claims, hu⟩ := State.opManifest_placed e.tag e.takenAt hb hi hc hp
        rw [State.admitOrRefuse_eq, if_neg (Nat.not_lt.mpr hfits), if_pos htab] at hu
        exact hraise hu
  case admission =>
    intro ring claims hplace c share
    obtain ⟨hv64, hkind, hidx⟩ := Lineage.bayVessel_some hbay
    have hk : k < 6 := hplace.elim (fun h => (Ring.matching_some h.1).1)
      fun h => mem_slotsFrom.mp (List.mem_of_find?_eq_some h.2)
    have hadmit : s.opManifest e.tag e.takenAt i = s.admitOrRefuse e.takenAt v k i (decide claims) e.tag := by
      rcases hplace with ⟨hm, hlen⟩ | ⟨hm, hf⟩
      · rw [State.opManifest_matched _ _ hbay hvalid hclean hm, if_neg (Nat.not_le.mpr hlen)]
        have : ¬ claims := fun h => nomatch hm.symm.trans h
        rw [decide_eq_false this]
      · rw [State.opManifest_claims _ _ hbay hvalid hclean hm hf, decide_eq_true hm]
    rw [State.admitOrRefuse_eq, if_neg (Nat.not_lt.mpr hcontent), if_neg (Nat.not_le.mpr hroom),
      State.takeIn_eq _ _ _ _ _ _ hkind hidx] at hadmit
    obtain ⟨t, hx, hres⟩ := exec_row_of ht rfl (hop hv hadmit) rfl
    rw [hv] at hx
    have hring : (s.lin.takenIn v i c (ring.taking k i share s.now (decide claims))).ring i.bay =
        ring.taking k i share s.now (decide claims) := Lineage.setRing_same (l := s.lin) hb _
    refine ⟨t, _, hx, hres, rfl, rfl, fun h1 h2 => ?_, fun j _ => ?_, ?_, ?_, fun b hne => ?_, ?_, fun u hne => ?_, rfl⟩
    · exact s.lin.issueColl_firstFree (by omega) h1 h2
    · exact (congrArg (Ring.slot · j) hring).trans (ring.slot_taking i share s.now hk rfl j)
    · exact (congrArg Ring.fill hring).trans (ring.taking_fill i share s.now rfl)
    · exact (congrArg Ring.disch hring).trans (ring.taking_disch i share s.now rfl)
    · exact Lineage.setRing_ne (l := s.lin) (Ne.symm hne) _
    · exact Lineage.setVessel_same hv64 _
    · exact Lineage.setVessel_ne (Ne.symm hne) _

end Sys2Proof.Machine

/-! DISPATCH, O58: the code read, the batch it resolves to, and the count against that batch (R116). -/

namespace Sys2Proof.Machine

open Sys2Proof

/-! ## The number of a code (R105) -/

/-- The number packed decimal bytes spell behind the digits `n`. -/
def decimalFrom (n : Nat) (l : List Byte) : Nat :=
  l.foldl (fun x b => x * 100 + b.toNat / 16 * 10 + b.toNat % 16) n

/-- Both half-bytes of every byte are decimal digits. -/
def packedDecimal (l : List Byte) : Prop := ∀ b ∈ l, b.toNat / 16 ≤ 9 ∧ b.toNat % 16 ≤ 9

/-- The step of the reading of a code. -/
def readDigits (acc : Option Nat) (b : Byte) : Option Nat :=
  match acc with
  | none => none
  | some n => if 9 < b.toNat / 16 || 9 < b.toNat % 16 then none else some (n * 100 + b.toNat / 16 * 10 + b.toNat % 16)

theorem foldl_readDigits_none (l : List Byte) : l.foldl readDigits none = none := by
  induction l with
  | nil => rfl
  | cons b l ih => exact ih

theorem foldl_readDigits (l : List Byte) (n m : Nat) :
    l.foldl readDigits (some n) = some m ↔ packedDecimal l ∧ decimalFrom n l = m := by
  induction l generalizing n with
  | nil => simp [packedDecimal, decimalFrom]
  | cons b l ih =>
    rw [List.foldl_cons]
    by_cases hb : b.toNat / 16 ≤ 9 ∧ b.toNat % 16 ≤ 9
    · have hstep : readDigits (some n) b = some (n * 100 + b.toNat / 16 * 10 + b.toNat % 16) :=
        if_neg (by simpa using hb)
      rw [hstep, ih, packedDecimal, packedDecimal, List.forall_mem_cons, and_iff_right hb]
      rfl
    · have hstep : readDigits (some n) b = none := if_pos (by simp only [Bool.or_eq_true, decide_eq_true_eq]; omega)
      rw [hstep, foldl_readDigits_none]
      exact ⟨nofun, fun h => absurd (h.1 b List.mem_cons_self) hb⟩

theorem codeOfBytes_some (l : List Byte) (m : Nat) : codeOfBytes l = some m ↔ packedDecimal l ∧ decimalFrom 0 l = m :=
  foldl_readDigits l 0 m

/-! ## The batch that carries it -/

theorem findSome?_range_eq_some {α : Type} (g : Nat → Option α) (n : Nat) (x : α) :
    (List.range n).findSome? g = some x ↔ ∃ i, i < n ∧ g i = some x ∧ ∀ j, j < i → g j = none := by
  induction n with
  | zero => simp
  | succ n ih =>
    rw [List.range_succ, List.findSome?_append, Option.or_eq_some_iff, ih]
    constructor
    · rintro (⟨i, hi, h⟩ | ⟨hnone, h⟩)
      · exact ⟨i, hi.trans (Nat.lt_succ_self n), h⟩
      · exact ⟨n, Nat.lt_succ_self n, by simpa using h, fun j hj =>
          List.findSome?_eq_none_iff.mp hnone j (List.mem_range.mpr hj)⟩
    · rintro ⟨i, hi, h, hlow⟩
      rcases Nat.lt_succ_iff_lt_or_eq.mp hi with hi | rfl
      · exact .inl ⟨i, hi, h, hlow⟩
      · exact .inr ⟨List.findSome?_eq_none_iff.mpr fun j hj => hlow j (List.mem_range.mp hj), by simpa using h⟩

/-- The newest element of a list that passes a test. -/
theorem find?_reverse_eq_some {α : Type} {p : α → Bool} {l : List α} {b : α} : l.reverse.find? p = some b ↔
    ∃ older newer, l = older ++ b :: newer ∧ p b = true ∧ ∀ y ∈ newer, ¬ p y = true := by
  rw [List.find?_eq_some_iff_append]
  constructor
  · rintro ⟨hb, xs, ys, hl, hx⟩
    refine ⟨ys.reverse, xs.reverse, ?_, hb, fun y hy => by simpa using hx y (List.mem_reverse.mp hy)⟩
    rw [← List.reverse_reverse l, hl]
    simp
  · rintro ⟨older, newer, rfl, hb, hy⟩
    exact ⟨hb, newer.reverse, older.reverse, by simp, fun y h => by simpa using hy y (List.mem_reverse.mp h)⟩

theorem Lineage.findCode_some (l : Lineage) (n f : Nat) (b : Batch) : l.findCode n = some (f, b) ↔
    f < 8 ∧ (∀ g, g < f → ∀ y ∈ (l.filler g).ring, ¬ y.code = n) ∧
      ∃ older newer, (l.filler f).ring = older ++ b :: newer ∧ b.code = n ∧ ∀ y ∈ newer, ¬ y.code = n := by
  have hnone : ∀ g, ((l.filler g).ring.reverse.find? (fun b => b.code == n)).map (fun b => (g, b)) = none ↔
      ∀ y ∈ (l.filler g).ring, ¬ y.code = n := fun g => by simp
  have hsome : ∀ g, ((l.filler g).ring.reverse.find? (fun b => b.code == n)).map (fun b => (g, b)) = some (f, b) ↔
      g = f ∧ ∃ older newer, (l.filler g).ring = older ++ b :: newer ∧ b.code = n ∧ ∀ y ∈ newer, ¬ y.code = n :=
    fun g => by
      rw [Option.map_eq_some_iff]
      simp only [Prod.mk.injEq, find?_reverse_eq_some, beq_iff_eq]
      constructor
      · rintro ⟨c, hc, rfl, rfl⟩
        exact ⟨rfl, hc⟩
      · rintro ⟨rfl, hc⟩
        exact ⟨b, hc, rfl, rfl⟩
  rw [Lineage.findCode, findSome?_range_eq_some]
  simp only [hnone, hsome]
  constructor
  · rintro ⟨g, hg, ⟨rfl, h⟩, hlow⟩
    exact ⟨hg, hlow, h⟩
  · rintro ⟨hf, hlow, h⟩
    exact ⟨f, hf, ⟨rfl, h⟩, hlow⟩

theorem Lineage.findCode_none (l : Lineage) (n : Nat) : l.findCode n = none ↔
    ∀ f, f < 8 → ∀ b ∈ (l.filler f).ring, ¬ b.code = n := by
  simp [Lineage.findCode]

section resolve

variable (l : Lineage) (code : List Byte)

/-- A code that names a batch: a packed decimal number, and not the indefinite code. -/
def namesBatch : Prop := packedDecimal code ∧ decimalFrom 0 code ≠ 999999999999999999

theorem Lineage.resolveCode_of_names {code : List Byte} (h : namesBatch code) :
    l.resolveCode code = l.findCode (decimalFrom 0 code) := by
  have hc : codeOfBytes code = some (decimalFrom 0 code) := (codeOfBytes_some _ _).mpr ⟨h.1, rfl⟩
  simp only [Lineage.resolveCode, hc]
  exact if_neg (mt beq_iff_eq.mp h.2)

theorem Lineage.resolveCode_of_not {code : List Byte} (h : ¬ namesBatch code) : l.resolveCode code = none := by
  unfold Lineage.resolveCode
  cases hc : codeOfBytes code with
  | none => rfl
  | some n =>
    obtain ⟨hd, rfl⟩ := (codeOfBytes_some _ _).mp hc
    exact if_pos (beq_iff_eq.mpr (not_not.mp fun hn => h ⟨hd, hn⟩))

theorem Lineage.resolveCode_some (f : Nat) (b : Batch) : l.resolveCode code = some (f, b) ↔
    namesBatch code ∧ l.findCode (decimalFrom 0 code) = some (f, b) := by
  by_cases h : namesBatch code
  · rw [l.resolveCode_of_names h, and_iff_right h]
  · rw [l.resolveCode_of_not h]
    exact ⟨nofun, fun hc => absurd hc.1 h⟩

theorem Lineage.resolveCode_none : l.resolveCode code = none ↔
    ¬ namesBatch code ∨ l.findCode (decimalFrom 0 code) = none := by
  by_cases h : namesBatch code
  · rw [l.resolveCode_of_names h, or_iff_right (not_not.mpr h)]
  · exact iff_of_true (l.resolveCode_of_not h) (.inl h)

end resolve

/-! ## The operation -/

/-- A dispatch of a code that resolved, in one equation. -/
theorem State.dispatchResolved_eq (s : State) (tag : Nat) (code : List Byte) (n note f : Nat) (b : Batch) :
    let sum := min (b.dispatched + n) 4294967295
    let c1 := CondVals.dispatchExcess b.serial b.produced sum
    let c2 := CondVals.dispatchSuspect b.serial note
    let u := s.setHold (if b.produced < sum then s.raisedHold none c1 else s.hold)
    s.dispatchResolved tag code n note f b =
      { s with
        lin := s.lin.setFiller f { s.lin.filler f with
          ring := (s.lin.filler f).ring.map (fun y => if y.serial = b.serial then { y with dispatched := sum } else y) }
        hold := if b.suspect = true then u.raisedHold none c2 else u.hold
        jrn := s.jrn.writeAll s.now tag (.dispatched code n note b.serial f b.produced sum ::
          ((if b.produced < sum then s.raisedRecs none c1 else []) ++
            (if b.suspect = true then u.raisedRecs none c2 else []))) } := by
  intro sum c1 c2 u
  let k := s.lin.setFiller f { s.lin.filler f with
    ring := (s.lin.filler f).ring.map (fun y => if y.serial = b.serial then { y with dispatched := sum } else y) }
  let p : Payload := .dispatched code n note b.serial f b.produced sum
  let ps : List Payload := p :: if b.produced < sum then s.raisedRecs none c1 else []
  have hk : ∀ g, k.fillerVessel g = s.lin.fillerVessel g := fun _ => rfl
  have h1 : (if b.produced < sum then
        ({ s with lin := k, jrn := s.jrn.writeAll s.now tag [p] } : State).raise tag none c1
      else { s with lin := k, jrn := s.jrn.writeAll s.now tag [p] }) =
      { u with lin := k, jrn := s.jrn.writeAll s.now tag ps } := by
    by_cases h : b.produced < sum
    · rw [if_pos h, s.raise_after tag none c1 hk]
      simp only [u, ps, if_pos h]
      rfl
    · simp only [u, ps, if_neg h]
      rfl
  have h2 : (if b.suspect = true then ({ u with lin := k, jrn := u.jrn.writeAll u.now tag ps } : State).raise tag none c2
      else { u with lin := k, jrn := u.jrn.writeAll u.now tag ps }) =
      { s with
        lin := k
        hold := if b.suspect = true then u.raisedHold none c2 else u.hold
        jrn := s.jrn.writeAll s.now tag (ps ++ if b.suspect = true then u.raisedRecs none c2 else []) } := by
    by_cases h : b.suspect = true
    · rw [if_pos h, u.raise_after tag none c2 hk, if_pos h, if_pos h]
      rfl
    · rw [if_neg h, if_neg h, if_neg h, List.append_nil]
      rfl
  have hd : s.dispatchResolved tag code n note f b =
      if b.suspect = true then
        (if b.produced < sum then ({ s with lin := k, jrn := s.jrn.writeAll s.now tag [p] } : State).raise tag none c1
          else { s with lin := k, jrn := s.jrn.writeAll s.now tag [p] }).raise tag none c2
      else if b.produced < sum then ({ s with lin := k, jrn := s.jrn.writeAll s.now tag [p] } : State).raise tag none c1
      else { s with lin := k, jrn := s.jrn.writeAll s.now tag [p] } := by
    simp only [State.dispatchResolved, Filler.updBatch, beq_iff_eq]
    rfl
  rw [hd, h1]
  exact h2

/-- Settles O58: the code read, the first batch that carries it, and the count in one equation. -/
theorem dispatchCountsAgainstTheBatch : Obligations.DispatchCountsAgainstTheBatch := by
  intro s e code n note ht hv decimal value carries
  have hop : ∀ {u}, s.opDispatch e.tag code n note = u → e.operation s = { st := u } := fun hu => by
    simp only [TakenEntry.operation, hv, hu]
  have hrow : e.val.row = .dispatchEntry := by rw [hv]; rfl
  refine ⟨?none, fun f b => ?some, fun hn => ?unresolved, fun f b hf => ?resolved⟩
  case none =>
    rw [Lineage.resolveCode_none, Lineage.findCode_none, namesBatch, not_and_or, not_not, or_assoc]
    exact Iff.rfl
  case some =>
    rw [Lineage.resolveCode_some, Lineage.findCode_some, namesBatch, and_assoc]
    exact Iff.rfl
  case unresolved =>
    have hu : s.opDispatch e.tag code n note =
        (s.write e.tag (.dispatchUnresolved code n note)).raise e.tag none (.dispatchUnresolved code note) := by
      simp only [State.opDispatch, hn]
    exact exec_row_of ht hrow (hop (hu.trans (s.raise_after (l := s.lin) e.tag none _ (fun _ => rfl)
      [.dispatchUnresolved code n note]))) rfl
  case resolved =>
    have hu : s.opDispatch e.tag code n note = s.dispatchResolved e.tag code n note f b := by
      simp only [State.opDispatch, hf]
    exact exec_row_of ht hrow (hop (hu.trans (s.dispatchResolved_eq e.tag code n note f b))) rfl

end Sys2Proof.Machine

/-! Largest-remainder apportionment, O42 (R29): the positions that gain are those that stand first by remainder and
place, as many as the quotients fall short. -/

namespace Sys2Proof.Machine

open Sys2Proof

/-! ## One gain -/

theorem maxRem_le {x : Nat × Option Nat} {r : Nat} (hr : x.2 = some r) (l : List (Nat × Option Nat)) (hx : x ∈ l) :
    r ≤ maxRem l := by
  induction l with
  | nil => cases hx
  | cons y l ih =>
    rcases List.mem_cons.mp hx with rfl | hx
    · simp only [maxRem, List.foldr_cons, hr]
      exact le_max_left _ _
    · have := ih hx
      unfold maxRem at this ⊢
      rw [List.foldr_cons]
      split
      · exact this.trans (le_max_right _ _)
      · exact this

theorem maxRem_mem (l : List (Nat × Option Nat)) (h : ∃ x ∈ l, x.2 ≠ none) : ∃ x ∈ l, x.2 = some (maxRem l) := by
  induction l with
  | nil => obtain ⟨x, hx, _⟩ := h; cases hx
  | cons y l ih =>
    by_cases hl : ∃ x ∈ l, x.2 ≠ none
    · obtain ⟨x, hx, hm⟩ := ih hl
      cases hy : y.2 with
      | none =>
        have : maxRem (y :: l) = maxRem l := by simp only [maxRem, List.foldr_cons, hy]
        exact ⟨x, List.mem_cons_of_mem y hx, by rw [this, hm]⟩
      | some r =>
        have : maxRem (y :: l) = max r (maxRem l) := by simp only [maxRem, List.foldr_cons, hy]
        rcases le_total r (maxRem l) with h | h
        · exact ⟨x, List.mem_cons_of_mem y hx, by rw [this, max_eq_right h, hm]⟩
        · exact ⟨y, List.mem_cons_self, by rw [this, max_eq_left h, hy]⟩
    · obtain ⟨x, hx, hs⟩ := h
      obtain rfl : x = y := (List.mem_cons.mp hx).resolve_right fun h => hl ⟨x, h, hs⟩
      obtain ⟨r, hr⟩ := Option.ne_none_iff_exists'.mp hs
      have h0 : ∀ t : List (Nat × Option Nat), (¬ ∃ x ∈ t, x.2 ≠ none) → maxRem t = 0 := fun t => by
        induction t with
        | nil => exact fun _ => rfl
        | cons z t ih =>
          intro ht
          have hz : z.2 = none := by_contra fun hz => ht ⟨z, List.mem_cons_self, hz⟩
          have := ih fun ⟨x, hx, hn⟩ => ht ⟨x, List.mem_cons_of_mem z hx, hn⟩
          simp only [maxRem, List.foldr_cons, hz]
          exact this
      refine ⟨x, List.mem_cons_self, ?_⟩
      have : maxRem (x :: l) = max r (maxRem l) := by simp only [maxRem, List.foldr_cons, hr]
      rw [this, h0 l hl, hr, Nat.max_zero]

theorem gainFirst_eq_set (m : Nat) (l : List (Nat × Option Nat)) (i : Nat) (hi : i < l.length) (hm : l[i].2 = some m)
    (hlow : ∀ j, ∀ hj : j < i, l[j].2 ≠ some m) : gainFirst m l = l.set i (l[i].1 + 1, none) := by
  induction l generalizing i with
  | nil => cases hi
  | cons x l ih =>
    obtain ⟨p, r⟩ := x
    cases i with
    | zero =>
      simp only [List.getElem_cons_zero] at hm
      subst hm
      simp [gainFirst]
    | succ i =>
      have hrec := ih i (by simpa using hi) hm fun j hj => hlow (j + 1) (by omega)
      have hx : r ≠ some m := hlow 0 (by omega)
      cases r with
      | none => simp [gainFirst, hrec]
      | some r => simp [gainFirst, hrec, show ¬ r = m from fun e => hx (congrArg some e)]

/-! ## The positions that gain -/

section order

variable (n : Nat) (q r : Nat → Nat)

/-- Position `j` stands before `k`: by a larger remainder, or among equals by an earlier place. -/
abbrev standsBefore (j k : Nat) : Prop := r k < r j ∨ (r j = r k ∧ j < k)

theorem standsBefore_total {j k : Nat} (h : j ≠ k) : standsBefore r j k ∨ standsBefore r k j := by
  unfold standsBefore
  omega

theorem standsBefore_asymm {j k : Nat} (h : standsBefore r j k) : ¬ standsBefore r k j := by
  unfold standsBefore at *
  omega

/-- The positions and their remainders with those of `G` gained. -/
def gainedList (G : Finset Nat) : List (Nat × Option Nat) :=
  (List.range n).map (fun i => if i ∈ G then (q i + 1, none) else (q i, some (r i)))

/-- `m` positions, the first in the order. -/
structure FirstIn (m : Nat) (G : Finset Nat) : Prop where
  lt : ∀ i ∈ G, i < n
  card : G.card = m
  first : ∀ j ∈ G, ∀ k, k < n → k ∉ G → standsBefore r j k

variable {n r}

theorem FirstIn.mem_iff {m : Nat} {G : Finset Nat} (h : FirstIn n r m G) {k : Nat} (hk : k < n) :
    k ∈ G ↔ ((List.range n).filter (fun j => decide (standsBefore r j k))).length < m := by
  have hcard : ((List.range n).filter (fun j => decide (standsBefore r j k))).length =
      ((Finset.range n).filter (standsBefore r · k)).card := rfl
  rw [hcard, ← h.card]
  constructor
  · intro hG
    refine Finset.card_lt_card ⟨fun j hj => ?_, fun hsub => ?_⟩
    · obtain ⟨hjn, hjk⟩ := Finset.mem_filter.mp hj
      by_contra hjG
      exact standsBefore_asymm r hjk (h.first k hG j (Finset.mem_range.mp hjn) hjG)
    · have := (Finset.mem_filter.mp (hsub hG)).2
      exact standsBefore_asymm r this this
  · intro hlt
    by_contra hG
    refine absurd (Finset.card_le_card fun j hj => ?_) (Nat.not_le.mpr hlt)
    exact Finset.mem_filter.mpr ⟨Finset.mem_range.mpr (h.lt j hj), h.first j hj k hk hG⟩

theorem gainedList_length (q : Nat → Nat) (G : Finset Nat) : (gainedList n q r G).length = n := by
  rw [gainedList, List.length_map, List.length_range]

theorem gainedList_getElem (q : Nat → Nat) (G : Finset Nat) {i : Nat} (hi : i < (gainedList n q r G).length) :
    (gainedList n q r G)[i] = if i ∈ G then (q i + 1, none) else (q i, some (r i)) := by
  simp only [gainedList, List.getElem_map, List.getElem_range]

theorem gainedList_open (q : Nat → Nat) {G : Finset Nat} {i m : Nat} (hi : i < (gainedList n q r G).length) :
    (gainedList n q r G)[i].2 = some m ↔ i ∉ G ∧ r i = m := by
  rw [gainedList_getElem]
  split <;> simp [*]

theorem gainedList_set (q : Nat → Nat) {G : Finset Nat} {i : Nat} :
    (gainedList n q r G).set i (q i + 1, none) = gainedList n q r (insert i G) := by
  refine List.ext_getElem (by rw [List.length_set, gainedList_length, gainedList_length]) fun j hj hj' => ?_
  rw [List.getElem_set, gainedList_getElem, gainedList_getElem]
  by_cases e : i = j
  · rw [if_pos e, if_pos (Finset.mem_insert.mpr (.inl e.symm)), e]
  · rw [if_neg e]
    exact if_congr ((Finset.mem_insert.trans (or_iff_right (Ne.symm e))).symm) rfl rfl

/-- A gain adds the next position in the order. -/
theorem gainFirst_gainedList (q : Nat → Nat) {m : Nat} {G : Finset Nat} (h : FirstIn n r m G) (hm : m < n) :
    ∃ G', gainFirst (maxRem (gainedList n q r G)) (gainedList n q r G) = gainedList n q r G' ∧ FirstIn n r (m + 1) G' := by
  classical
  let L := gainedList n q r G
  have hlen : L.length = n := gainedList_length q G
  have hopen : ∃ x ∈ L, x.2 ≠ none := by
    obtain ⟨i, hi, hG⟩ := Finset.exists_mem_notMem_of_card_lt_card (s := G) (t := Finset.range n) (by
      rwa [h.card, Finset.card_range])
    have hiL : i < L.length := hlen.symm ▸ Finset.mem_range.mp hi
    exact ⟨L[i], List.getElem_mem hiL, by rw [(gainedList_open q hiL).mpr ⟨hG, rfl⟩]; nofun⟩
  have hbest : ∃ i, i < n ∧ i ∉ G ∧ r i = maxRem L := by
    obtain ⟨x, hx, hmax⟩ := maxRem_mem L hopen
    obtain ⟨i, hi, rfl⟩ := List.mem_iff_getElem.mp hx
    obtain ⟨hG, hr⟩ := (gainedList_open q hi).mp hmax
    exact ⟨i, hlen ▸ hi, hG, hr⟩
  obtain ⟨hi, hG, hr⟩ := Nat.find_spec hbest
  have hleast : ∀ j, j < Nat.find hbest → ¬ (j < n ∧ j ∉ G ∧ r j = maxRem L) := fun j => Nat.find_min hbest
  generalize Nat.find hbest = i at hi hG hr hleast
  have hiL : i < L.length := hlen.symm ▸ hi
  refine ⟨insert i G, ?_, ⟨fun j hj => ?_, ?_, fun j hj k hk hkI => ?_⟩⟩
  · rw [gainFirst_eq_set (maxRem L) L i hiL ((gainedList_open q hiL).mpr ⟨hG, hr⟩) fun j hj hjm => ?_]
    · rw [show L[i].1 = q i by rw [gainedList_getElem, if_neg hG]]
      exact gainedList_set q
    · obtain ⟨hjG, hjr⟩ := (gainedList_open q (hj.trans hiL)).mp hjm
      exact hleast j hj ⟨hj.trans hi, hjG, hjr⟩
  · rcases Finset.mem_insert.mp hj with rfl | hj
    · exact hi
    · exact h.lt j hj
  · rw [Finset.card_insert_of_notMem hG, h.card]
  · obtain ⟨hki, hkG⟩ := not_or.mp (mt Finset.mem_insert.mpr hkI)
    rcases Finset.mem_insert.mp hj with rfl | hj
    · have hkL : k < L.length := hlen.symm ▸ hk
      have hle : r k ≤ maxRem L := maxRem_le ((gainedList_open q hkL).mpr ⟨hkG, rfl⟩) L (List.getElem_mem hkL)
      have hnot := hleast k
      unfold standsBefore
      rw [hr]
      by_cases e : r k = maxRem L
      · have : ¬ k < j := fun hlt => hnot hlt ⟨hk, hkG, e⟩
        omega
      · omega
    · exact h.first j hj k hk hkG

theorem gainLargest_gainedList (q : Nat → Nat) (k : Nat) {m : Nat} {G : Finset Nat} (h : FirstIn n r m G) (hk : m + k ≤ n) :
    ∃ G', gainLargest k (gainedList n q r G) = gainedList n q r G' ∧ FirstIn n r (m + k) G' := by
  induction k generalizing m G with
  | zero => exact ⟨G, rfl, h⟩
  | succ k ih =>
    obtain ⟨G1, h1, hf1⟩ := gainFirst_gainedList q h (by omega)
    obtain ⟨G2, h2, hf2⟩ := ih hf1 (by omega)
    refine ⟨G2, ?_, by rwa [Nat.add_right_comm] at hf2⟩
    rw [gainLargest, h1, h2]

theorem firstIn_empty : FirstIn n r 0 ∅ := ⟨nofun, rfl, nofun⟩

end order

/-! ## The quotients and their shortfall -/

section quotients

theorem sum_map_range (n : Nat) (f : Nat → Nat) : ((List.range n).map f).sum = ∑ i ∈ Finset.range n, f i := rfl

variable {v n : Nat} {w : Nat → Nat} {W : Nat} (hW : ∑ i ∈ Finset.range n, w i = W) (hpos : 0 < W)
include hW

/-- The quotients and the remainders make up the volume. -/
theorem sum_quotients : W * ∑ i ∈ Finset.range n, v * w i / W + ∑ i ∈ Finset.range n, v * w i % W = W * v := by
  rw [Finset.mul_sum, ← Finset.sum_add_distrib]
  simp only [Nat.div_add_mod]
  rw [← Finset.mul_sum, hW, Nat.mul_comm]

include hpos

/-- The quotients fall short by fewer than the positions with a remainder, unless by none. -/
theorem shortfall_bounds : ∑ i ∈ Finset.range n, v * w i / W ≤ v ∧
    (v - ∑ i ∈ Finset.range n, v * w i / W ≤ ((Finset.range n).filter (fun i => 0 < v * w i % W)).card) := by
  have hsum := sum_quotients (v := v) hW
  generalize hq : ∑ i ∈ Finset.range n, v * w i / W = Q at *
  have hle : ∑ i ∈ Finset.range n, v * w i % W ≤ ((Finset.range n).filter (fun i => 0 < v * w i % W)).card * W := by
    rw [← Finset.sum_filter_of_ne (p := fun i => 0 < v * w i % W) fun i _ h => Nat.pos_of_ne_zero h]
    exact Finset.sum_le_card_nsmul _ _ W fun i _ => (Nat.mod_lt _ hpos).le
  generalize ((Finset.range n).filter (fun i => 0 < v * w i % W)).card = c at *
  generalize ∑ i ∈ Finset.range n, v * w i % W = R at *
  constructor
  · exact Nat.le_of_mul_le_mul_left (by omega) hpos
  · refine Nat.sub_le_iff_le_add'.mpr (Nat.le_of_mul_le_mul_left ?_ hpos)
    rw [Nat.mul_add, Nat.mul_comm W c]
    omega

end quotients

/-- The floors of R29 are the list in which no position has gained. -/
theorem floors_eq (v wt : Nat) (ws : List Nat) : floors v wt ws =
    gainedList ws.length (fun i => v * ws.getD i 0 / wt) (fun i => v * ws.getD i 0 % wt) ∅ := by
  refine List.ext_getElem (by simp [floors, gainedList]) fun i hi hi' => ?_
  have hlen : i < ws.length := by simpa [floors] using hi
  simp [floors, gainedList, List.getElem?_eq_getElem hlen]

theorem sum_eq_range (ws : List Nat) : ∑ i ∈ Finset.range ws.length, ws.getD i 0 = ws.sum := by
  rw [← sum_map_range]
  refine congrArg List.sum (List.ext_getElem (by simp) fun i hi hi' => ?_)
  simp [List.getElem?_eq_getElem hi']

/-- The quotients of R29 as a sum over the positions. -/
theorem sum_floors (v wt : Nat) (ws : List Nat) :
    (ws.map (fun w => v * w / wt)).sum = ∑ i ∈ Finset.range ws.length, v * ws.getD i 0 / wt := by
  rw [← sum_map_range]
  refine congrArg List.sum (List.ext_getElem (by simp) fun i hi hi' => ?_)
  have hlen : i < ws.length := by simpa using hi
  simp [List.getElem?_eq_getElem hlen]

/-- The apportionment: the first positions of the order gain, as many as the quotients fall short. -/
theorem apportion_eq (v : Nat) (ws : List Nat) (hpos : 0 < ws.sum) :
    ∃ G, FirstIn ws.length (fun i => v * ws.getD i 0 % ws.sum) (v - (ws.map (fun w => v * w / ws.sum)).sum) G ∧
      apportion v ws = (List.range ws.length).map (fun i => v * ws.getD i 0 / ws.sum + if i ∈ G then 1 else 0) := by
  have hshort := (shortfall_bounds (v := v) (sum_eq_range ws) hpos).2
  rw [← sum_floors] at hshort
  have hfloors : ((floors v ws.sum ws).map Prod.fst).sum = (ws.map (fun w => v * w / ws.sum)).sum := by
    rw [floors, List.map_map]
    rfl
  obtain ⟨G, hG, hfirst⟩ := gainLargest_gainedList (fun i => v * ws.getD i 0 / ws.sum)
    (v - (ws.map (fun w => v * w / ws.sum)).sum) (firstIn_empty (n := ws.length) (r := fun i => v * ws.getD i 0 % ws.sum)) (by
      have := Finset.card_le_card (Finset.filter_subset (fun i => 0 < v * ws.getD i 0 % ws.sum) (Finset.range ws.length))
      rw [Finset.card_range] at this
      omega)
  refine ⟨G, by rwa [Nat.zero_add] at hfirst, ?_⟩
  unfold apportion
  dsimp only
  rw [hfloors, floors_eq, hG, gainedList, List.map_map]
  refine List.map_congr_left fun i _ => ?_
  rw [Function.comp_apply]
  split <;> rfl

section portions

variable {v : Nat} {ws : List Nat} (hpos : 0 < ws.sum)
include hpos

theorem apportion_length : (apportion v ws).length = ws.length := by
  obtain ⟨G, _, h⟩ := apportion_eq v ws hpos
  rw [h, List.length_map, List.length_range]

theorem apportion_sum : (apportion v ws).sum = v := by
  obtain ⟨G, hG, h⟩ := apportion_eq v ws hpos
  have hle := (shortfall_bounds (v := v) (sum_eq_range ws) hpos).1
  have hcard : ∑ i ∈ Finset.range ws.length, (if i ∈ G then 1 else 0) = G.card := by
    rw [Finset.sum_boole, Nat.cast_id]
    refine congrArg Finset.card (Finset.ext fun i => ?_)
    rw [Finset.mem_filter, Finset.mem_range]
    exact ⟨And.right, fun hi => ⟨hG.lt i hi, hi⟩⟩
  rw [h, sum_map_range, Finset.sum_add_distrib, hcard, hG.card, sum_floors]
  omega

end portions

/-- A position with a remainder rounds up within its weight, where the volume is within the weights' sum. -/
theorem quotient_succ_le {v w W : Nat} (hv : v ≤ W) (hr : 0 < v * w % W) : v * w / W + 1 ≤ w := by
  have hd := Nat.div_add_mod (v * w) W
  have hle : v * w ≤ W * w := Nat.mul_le_mul_right w hv
  exact Nat.lt_of_mul_lt_mul_left (a := W) (by omega)

/-- Settles O42: the positions that gain are the first in the order, as many as the shortfall. -/
theorem apportionmentIsExact : Obligations.ApportionmentIsExact := by
  intro v ws hpos rem shortfall
  refine ⟨apportion_length hpos, apportion_sum hpos, fun k hk => ?_⟩
  intro ahead
  obtain ⟨G, hG, happ⟩ := apportion_eq v ws hpos
  have hmem : k ∈ G ↔ ahead.length < shortfall := hG.mem_iff hk
  have hval : (apportion v ws).getD k 0 = v * ws.getD k 0 / ws.sum + if ahead.length < shortfall then 1 else 0 := by
    rw [happ, List.getD_eq_getElem _ _ (by simpa using hk), List.getElem_map, List.getElem_range]
    exact congrArg _ (if_congr hmem rfl rfl)
  refine ⟨hval, fun hv => ?_⟩
  rw [hval]
  split
  · rename_i hlt
    refine quotient_succ_le hv (Nat.pos_of_ne_zero fun h0 => absurd hlt (Nat.not_lt.mpr ?_))
    have hshort := (shortfall_bounds (v := v) (sum_eq_range ws) hpos).2
    rw [← sum_floors] at hshort
    refine hshort.trans (Finset.card_le_card (t := (Finset.range ws.length).filter
      (fun j => rem k < rem j ∨ (rem j = rem k ∧ j < k))) fun j hj => ?_)
    obtain ⟨hj, hrem⟩ := Finset.mem_filter.mp hj
    exact Finset.mem_filter.mpr ⟨hj, .inl (lt_of_eq_of_lt h0 hrem)⟩
  · rw [Nat.add_zero]
    exact Nat.div_le_of_le_mul (Nat.mul_le_mul_right _ hv)

end Sys2Proof.Machine

/-! Truncation, O45 (R41): the smallest known shares of the list are removed one by one, and the volume removed
stands in U-0. -/

namespace Sys2Proof.Machine

open Sys2Proof

/-! ## Volumes of lists -/

theorem total_append (l m : List Share) : total (l ++ m) = total l + total m := by
  simp [total]

theorem total_cons (x : Share) (l : List Share) : total (x :: l) = x.vol + total l := by
  simp [total]

/-- A share with volume added where its key is `k`. -/
def Share.addAt (k : Key) (n : Nat) (y : Share) : Share := if y.key = k then { y with vol := y.vol + n } else y

theorem Share.addAt_key (k : Key) (n : Nat) (y : Share) : (y.addAt k n).key = y.key := by
  unfold Share.addAt
  split <;> rfl

theorem Share.addAt_of_ne {k : Key} {y : Share} (h : y.key ≠ k) (n : Nat) : y.addAt k n = y := if_neg h

theorem Share.addAt_addAt (k : Key) (n m : Nat) (y : Share) : (y.addAt k n).addAt k m = y.addAt k (n + m) := by
  unfold Share.addAt
  by_cases h : y.key = k
  · simp only [h, if_true]
    rw [Nat.add_assoc]
  · simp only [h, if_false]

theorem map_addAt_of_notMem {l : List Share} {k : Key} (h : k ∉ keysOf l) (n : Nat) : l.map (Share.addAt k n) = l := by
  refine (List.map_congr_left fun y hy => Share.addAt_of_ne (fun e => h ?_) n).trans (List.map_id l)
  exact e ▸ List.mem_map_of_mem hy

theorem total_map_addAt {l : List Share} (hn : (keysOf l).Nodup) {k : Key} (hk : k ∈ keysOf l) (n : Nat) :
    total (l.map (Share.addAt k n)) = total l + n := by
  induction l with
  | nil => cases hk
  | cons x l ih =>
    obtain ⟨hx, hn'⟩ := List.nodup_cons.mp (show (x.key :: keysOf l).Nodup from hn)
    rw [List.map_cons, total_cons, total_cons]
    by_cases e : x.key = k
    · rw [map_addAt_of_notMem (e ▸ hx), Share.addAt, if_pos e]
      change x.vol + n + total l = _
      omega
    · rw [Share.addAt_of_ne e, ih hn' ((List.mem_cons.mp hk).resolve_left (Ne.symm e))]
      omega

theorem addPortion_of_mem {l : List Share} {p : Share} (h : p.key ∈ keysOf l) :
    addPortion l p = l.map (Share.addAt p.key p.vol) := by
  unfold addPortion
  rw [if_pos ((hasKey_iff l p.key).mpr h)]
  exact List.map_congr_left fun y _ => by simp only [Share.addAt, beq_iff_eq]

/-! ## The smallest known share -/

/-- A list cut at its smallest known share, the last of equals. -/
structure SmallestAt (a : List Share) (x : Share) (b : List Share) : Prop where
  known : x.key ≠ .unknown
  before : ∀ z ∈ a, z.key ≠ .unknown → x.vol ≤ z.vol
  behind : ∀ z ∈ b, z.key ≠ .unknown → x.vol < z.vol

theorem exists_smallestAt (l : List Share) (h : ∃ y ∈ l, y.key ≠ .unknown) :
    ∃ a x b, l = a ++ x :: b ∧ SmallestAt a x b := by
  induction l with
  | nil => obtain ⟨y, hy, _⟩ := h; cases hy
  | cons z l ih =>
    by_cases hl : ∃ y ∈ l, y.key ≠ .unknown
    · obtain ⟨a, x, b, rfl, hx⟩ := ih hl
      by_cases hz : z.key ≠ .unknown ∧ z.vol < x.vol
      · refine ⟨[], z, a ++ x :: b, rfl, hz.1, nofun, fun w hw hk => ?_⟩
        rcases List.mem_append.mp hw with hw | hw
        · exact hz.2.trans_le (hx.before w hw hk)
        · rcases List.mem_cons.mp hw with rfl | hw
          · exact hz.2
          · exact hz.2.trans (hx.behind w hw hk)
      · refine ⟨z :: a, x, b, rfl, hx.known, fun w hw hk => ?_, hx.behind⟩
        rcases List.mem_cons.mp hw with rfl | hw
        · exact Nat.le_of_not_lt fun hlt => hz ⟨hk, hlt⟩
        · exact hx.before w hw hk
    · obtain ⟨y, hy, hk⟩ := h
      obtain rfl : y = z := (List.mem_cons.mp hy).resolve_right fun hy => hl ⟨y, hy, hk⟩
      exact ⟨[], y, l, rfl, hk, nofun, fun w hw hwk => absurd ⟨w, hw, hwk⟩ hl⟩

theorem smallestKnown_mem {l : List Share} {n : Nat} (h : smallestKnown l = some n) :
    ∃ y ∈ l, y.key ≠ .unknown ∧ y.vol = n := by
  induction l generalizing n with
  | nil => cases h
  | cons z l ih =>
    unfold smallestKnown at h
    have tail : ∀ {m}, smallestKnown l = some m → ∃ y ∈ z :: l, y.key ≠ .unknown ∧ y.vol = m := fun hm => by
      obtain ⟨y, hy, hk⟩ := ih hm
      exact ⟨y, List.mem_cons_of_mem z hy, hk⟩
    by_cases hz : z.key = .unknown
    · rw [if_pos (beq_iff_eq.mpr hz)] at h
      exact tail h
    · rw [if_neg (by simpa using hz)] at h
      cases hs : smallestKnown l with
      | none =>
        rw [hs] at h
        exact ⟨z, List.mem_cons_self, hz, Option.some.inj h⟩
      | some m =>
        rw [hs] at h
        rcases min_choice z.vol m with hmin | hmin
        · exact ⟨z, List.mem_cons_self, hz, hmin.symm.trans (Option.some.inj h)⟩
        · exact tail (hs.trans (congrArg some (hmin.symm.trans (Option.some.inj h))))

theorem smallestKnown_some {l : List Share} {m : Nat} (hex : ∃ y ∈ l, y.key ≠ .unknown ∧ y.vol = m)
    (hall : ∀ y ∈ l, y.key ≠ .unknown → m ≤ y.vol) : smallestKnown l = some m := by
  induction l generalizing m with
  | nil => obtain ⟨y, hy, _⟩ := hex; cases hy
  | cons z l ih =>
    have hl : ∀ y ∈ l, y.key ≠ .unknown → m ≤ y.vol := fun y hy => hall y (List.mem_cons_of_mem z hy)
    unfold smallestKnown
    by_cases hz : z.key = .unknown
    · rw [if_pos (beq_iff_eq.mpr hz)]
      obtain ⟨y, hy, hk, hv⟩ := hex
      exact ih ⟨y, (List.mem_cons.mp hy).resolve_left fun e => hk (e ▸ hz), hk, hv⟩ hl
    · rw [if_neg (by simpa using hz)]
      have hzm : m ≤ z.vol := hall z List.mem_cons_self hz
      by_cases hm : ∃ y ∈ l, y.key ≠ .unknown ∧ y.vol = m
      · rw [ih hm hl]
        exact congrArg some (min_eq_right hzm)
      · obtain ⟨y, hy, hk, hv⟩ := hex
        obtain rfl : y = z := (List.mem_cons.mp hy).resolve_right fun hy => hm ⟨y, hy, hk, hv⟩
        cases hs : smallestKnown l with
        | none => exact congrArg some hv
        | some n =>
          obtain ⟨w, hw, hwk, rfl⟩ := smallestKnown_mem hs
          exact congrArg some ((min_eq_left (hv ▸ hl w hw hwk)).trans hv)

theorem removeFirst_append {m : Nat} {a b : List Share} {x : Share} (hx : x.key ≠ .unknown) (hv : x.vol = m)
    (ha : ∀ z ∈ a, z.key ≠ .unknown → z.vol ≠ m) : removeFirst m (a ++ x :: b) = some (x, a ++ b) := by
  induction a with
  | nil => exact if_pos (by simp [hx, hv])
  | cons z a ih =>
    have hz : ¬ (z.key != .unknown && z.vol == m) = true := by
      simp only [Bool.and_eq_true, bne_iff_ne, beq_iff_eq, not_and]
      exact ha z List.mem_cons_self
    rw [List.cons_append, removeFirst, if_neg hz, ih fun w hw => ha w (List.mem_cons_of_mem z hw)]
    rfl

theorem SmallestAt.removeSmallest {a b : List Share} {x : Share} (h : SmallestAt a x b) :
    removeSmallest (a ++ x :: b) = some (x, a ++ b) := by
  have hs : smallestKnown (a ++ x :: b) = some x.vol := by
    refine smallestKnown_some ⟨x, by simp, h.known, rfl⟩ fun y hy hk => ?_
    rcases List.mem_append.mp hy with hy | hy
    · exact h.before y hy hk
    · rcases List.mem_cons.mp hy with rfl | hy
      · exact le_rfl
      · exact (h.behind y hy hk).le
  have hr : (a ++ x :: b).reverse = b.reverse ++ x :: a.reverse := by simp
  simp only [Machine.removeSmallest, hs]
  rw [hr, removeFirst_append h.known rfl fun z hz hk => (h.behind z (List.mem_reverse.mp hz) hk).ne']
  simp

/-! ## The shares removed -/

section removal

variable (l : List Share)

/-- Share `y` is removed ahead of `z`: it is smaller, or among equals stands later. -/
def removedFirst (y z : Share) : Prop := y.vol < z.vol ∨ (y.vol = z.vol ∧ l.idxOf z < l.idxOf y)

/-- The shares of a list that stay. -/
def staying (removed : List Share) : List Share := l.filter (fun y => y ∉ removed)

/-- Known shares of a list in the order of their removal, ahead of every known share that stays. -/
structure Removed (removed : List Share) : Prop where
  mem : ∀ y ∈ removed, y ∈ l ∧ y.key ≠ .unknown
  order : removed.Pairwise (removedFirst l)
  ahead : ∀ y ∈ removed, ∀ z ∈ staying l removed, z.key ≠ .unknown → removedFirst l y z
  count : (staying l removed).length + removed.length = l.length
  volume : total (staying l removed) + total removed = total l

theorem staying_nil : staying l [] = l := List.filter_eq_self.mpr fun _ _ => decide_eq_true (List.not_mem_nil)

theorem removed_nil : Removed l [] := ⟨nofun, .nil, nofun, congrArg List.length (staying_nil l), congrArg total (staying_nil l)⟩

variable {l}

theorem nodup_of_keys (hn : (keysOf l).Nodup) : l.Nodup := hn.of_map _

/-- Of two shares of a part of a list the one that stands first there stands first in the list. -/
theorem idxOf_lt_of_sublist {a b : List Share} {x z : Share} (hn : l.Nodup) (hs : (a ++ x :: b).Sublist l) (hz : z ∈ a) :
    l.idxOf z < l.idxOf x := by
  have hp : l.Pairwise (fun y w => l.idxOf y < l.idxOf w) := by
    rw [List.pairwise_iff_getElem]
    intro i j hi hj hij
    rw [hn.idxOf_getElem, hn.idxOf_getElem]
    exact hij
  exact (List.pairwise_append.mp (hp.sublist hs)).2.2 z hz x List.mem_cons_self

/-- One more removal: the smallest known share of those that stay. -/
theorem Removed.step {removed a b : List Share} {x : Share} (hn : (keysOf l).Nodup) (h : Removed l removed)
    (hcut : staying l removed = a ++ x :: b) (hx : SmallestAt a x b) :
    Removed l (removed ++ [x]) ∧ staying l (removed ++ [x]) = a ++ b := by
  have hln := nodup_of_keys hn
  have hsub : (a ++ x :: b).Sublist l := hcut ▸ List.filter_sublist
  have hxs : x ∈ staying l removed := by rw [hcut]; simp
  have hxl : x ∈ l := (List.mem_filter.mp hxs).1
  have hnodup : (a ++ x :: b).Nodup := hln.sublist hsub
  have hxab : x ∉ a ++ b := (List.nodup_middle.mp hnodup |> List.nodup_cons.mp).1
  have hstay : staying l (removed ++ [x]) = a ++ b := by
    have hf : staying l (removed ++ [x]) = (staying l removed).filter (fun y => y ≠ x) := by
      unfold staying
      rw [List.filter_filter]
      exact List.filter_congr fun y _ => by simp [and_comm]
    rw [hf, hcut, List.filter_append, List.filter_cons_of_neg (by simp), ← List.filter_append]
    exact List.filter_eq_self.mpr fun y hy => decide_eq_true fun e => hxab (e ▸ hy)
  refine ⟨⟨fun y hy => ?_, ?_, fun y hy z hz hk => ?_, ?_, ?_⟩, hstay⟩
  · rcases List.mem_append.mp hy with hy | hy
    · exact h.mem y hy
    · obtain rfl := List.mem_singleton.mp hy
      exact ⟨hxl, hx.known⟩
  · rw [List.pairwise_append]
    exact ⟨h.order, List.pairwise_singleton _ _, fun y hy z hz => by
      obtain rfl := List.mem_singleton.mp hz
      exact h.ahead y hy z hxs hx.known⟩
  · rw [hstay] at hz
    rcases List.mem_append.mp hy with hy | hy
    · refine h.ahead y hy z ?_ hk
      rw [hcut]
      exact List.mem_append.mpr ((List.mem_append.mp hz).imp id (List.mem_cons_of_mem x))
    · obtain rfl := List.mem_singleton.mp hy
      rcases List.mem_append.mp hz with hz | hz
      · rcases Nat.lt_or_eq_of_le (hx.before z hz hk) with hlt | heq
        · exact .inl hlt
        · exact .inr ⟨heq, idxOf_lt_of_sublist hln hsub hz⟩
      · exact .inl (hx.behind z hz hk)
  · have := h.count
    rw [hcut, List.length_append, List.length_cons] at this
    rw [hstay, List.length_append, List.length_append, List.length_singleton]
    omega
  · have := h.volume
    rw [hcut, total_append, total_cons] at this
    rw [hstay, total_append, total_append, total_cons]
    change _ + (_ + (x.vol + 0)) = _
    omega

/-- Of two shares or more with different keys one is known. -/
theorem exists_known {m : List Share} (hn : (keysOf m).Nodup) (h : 2 ≤ m.length) : ∃ y ∈ m, y.key ≠ .unknown := by
  match m, h with
  | x :: y :: m, _ =>
    by_cases hx : x.key = .unknown
    · refine ⟨y, by simp, fun hy => ?_⟩
      exact (List.nodup_cons.mp hn).1 (by rw [hx, ← hy]; exact List.mem_cons_self)
    · exact ⟨x, List.mem_cons_self, hx⟩

theorem staying_sublist (removed : List Share) : (staying l removed).Sublist l := List.filter_sublist

theorem keysOf_sublist {m : List Share} (h : m.Sublist l) : (keysOf m).Sublist (keysOf l) := h.map _

theorem exists_removal {removed : List Share} (hn : (keysOf l).Nodup) (h : 2 ≤ (staying l removed).length) :
    ∃ a x b, staying l removed = a ++ x :: b ∧ SmallestAt a x b :=
  exists_smallestAt _ (exists_known (hn.sublist (keysOf_sublist (staying_sublist removed))) h)

/-! ## The volume removed, in U-0 -/

/-- The list with the volume removed added to its U-0. -/
def foldedList (l removed : List Share) : List Share :=
  (staying l removed).map (Share.addAt .unknown (total removed))

/-- A share that is known keeps its volume as U-0 grows, so the cut stays. -/
theorem SmallestAt.map_addAt {a b : List Share} {x : Share} (h : SmallestAt a x b) (n : Nat) :
    SmallestAt (a.map (Share.addAt .unknown n)) x (b.map (Share.addAt .unknown n)) := by
  have keep : ∀ z : Share, (z.addAt .unknown n).key ≠ .unknown → z.key ≠ .unknown ∧ z.addAt .unknown n = z := fun z hz => by
    rw [Share.addAt_key] at hz
    exact ⟨hz, Share.addAt_of_ne hz n⟩
  refine ⟨h.known, fun z hz hk => ?_, fun z hz hk => ?_⟩
  all_goals
    obtain ⟨w, hw, rfl⟩ := List.mem_map.mp hz
    obtain ⟨hwk, he⟩ := keep w hk
    rw [he]
  · exact h.before w hw hwk
  · exact h.behind w hw hwk

variable (hn : (keysOf l).Nodup) (hu : .unknown ∈ keysOf l)
include hn hu

omit hn in
/-- U-0 is not removed. -/
theorem unknown_mem_staying {removed : List Share} (h : Removed l removed) : .unknown ∈ keysOf (staying l removed) := by
  obtain ⟨u, hul, huk⟩ := List.mem_map.mp hu
  exact huk ▸ List.mem_map_of_mem (List.mem_filter.mpr ⟨hul, decide_eq_true fun hr => (h.mem u hr).2 huk⟩)

/-- One more removal, of the list with the volumes removed in U-0. -/
theorem addPortion_foldedList {removed a b : List Share} {x : Share} (h : Removed l removed)
    (hcut : staying l removed = a ++ x :: b) (hx : SmallestAt a x b) :
    Machine.removeSmallest (foldedList l removed) = some (x, (a ++ b).map (Share.addAt .unknown (total removed))) ∧
      addPortion ((a ++ b).map (Share.addAt .unknown (total removed))) ⟨.unknown, x.vol⟩ =
        foldedList l (removed ++ [x]) := by
  obtain ⟨h', hstay⟩ := h.step hn hcut hx
  have hmem : .unknown ∈ keysOf (a ++ b) := hstay ▸ unknown_mem_staying hu h'
  constructor
  · rw [foldedList, hcut, List.map_append, List.map_append, List.map_cons, Share.addAt_of_ne hx.known]
    exact (hx.map_addAt _).removeSmallest
  · rw [addPortion_of_mem (by simpa [keysOf, Share.addAt_key, Function.comp_def] using hmem), List.map_map, foldedList,
      hstay, total_append, total_cons]
    exact List.map_congr_left fun y _ => Share.addAt_addAt ..

/-- Step 2 of R41, from any removals on. -/
theorem foldSmallest_foldedList (fuel k : Nat) {removed : List Share} (h : Removed l removed)
    (hlen : (staying l removed).length = 12 + k) (hk : k ≤ fuel) :
    ∃ removed', foldSmallest fuel (foldedList l removed) removed = (foldedList l removed', removed') ∧
      Removed l removed' ∧ (staying l removed').length = 12 := by
  have hflen : (foldedList l removed).length = 12 + k := by rw [foldedList, List.length_map, hlen]
  induction fuel generalizing k removed with
  | zero =>
    obtain rfl := Nat.le_zero.mp hk
    exact ⟨removed, rfl, h, hlen⟩
  | succ fuel ih =>
    cases k with
    | zero => exact ⟨removed, if_pos (by rw [hflen]; decide), h, hlen⟩
    | succ k =>
      obtain ⟨a, x, b, hcut, hx⟩ := exists_removal (removed := removed) hn (by omega)
      obtain ⟨hrem, hadd⟩ := addPortion_foldedList hn hu h hcut hx
      obtain ⟨h', hstay⟩ := h.step hn hcut hx
      have hlen' : (staying l (removed ++ [x])).length = 12 + k := by
        rw [hcut, List.length_append, List.length_cons] at hlen
        rw [hstay, List.length_append]
        omega
      obtain ⟨r, hr, hres⟩ := ih k h' hlen' (by omega) (by rw [foldedList, List.length_map, hlen'])
      refine ⟨r, ?_, hres⟩
      rw [foldSmallest, if_neg (by rw [hflen]; simp [Config.shareMax]), hrem]
      dsimp only
      rw [hadd, hr]

/-- What is removed stands in U-0. -/
theorem total_foldedList {removed : List Share} (h : Removed l removed) : total (foldedList l removed) = total l := by
  rw [foldedList, total_map_addAt (hn.sublist (keysOf_sublist (staying_sublist removed))) (unknown_mem_staying hu h),
    h.volume]

end removal

/-! ## A list without U-0 -/

section without

variable {l : List Share} (hu : .unknown ∉ keysOf l)

theorem key_ne_unknown {y : Share} (hu : .unknown ∉ keysOf l) (hy : y ∈ l) : y.key ≠ .unknown :=
  fun e => hu (e ▸ List.mem_map_of_mem hy)

/-- The list with an empty U-0 at its end. -/
def withUnknown (l : List Share) : List Share := l ++ [⟨.unknown, 0⟩]

theorem withUnknown_nodup (hu : .unknown ∉ keysOf l) (hn : (keysOf l).Nodup) : (keysOf (withUnknown l)).Nodup := by
  rw [keysOf, withUnknown, List.map_append, List.nodup_append]
  exact ⟨hn, List.nodup_singleton _, fun k hk j hj e => hu (by
    obtain rfl := List.mem_singleton.mp hj
    rw [show k = .unknown from e] at hk
    exact hk)⟩

theorem unknown_mem_withUnknown (l : List Share) : .unknown ∈ keysOf (withUnknown l) := by
  simp [keysOf, withUnknown]

theorem staying_withUnknown {removed : List Share} (hr : ∀ y ∈ removed, y.key ≠ .unknown) :
    staying (withUnknown l) removed = staying l removed ++ [⟨.unknown, 0⟩] := by
  have hlast : [(⟨.unknown, 0⟩ : Share)].filter (fun y => y ∉ removed) = [⟨.unknown, 0⟩] :=
    List.filter_cons_of_pos (decide_eq_true fun h => hr _ h rfl)
  rw [staying, withUnknown, List.filter_append, hlast]
  rfl

theorem removedFirst_withUnknown {y z : Share} (hy : y ∈ l) (hz : z ∈ l) :
    removedFirst (withUnknown l) y z ↔ removedFirst l y z := by
  unfold removedFirst withUnknown
  rw [List.idxOf_append_of_mem hy, List.idxOf_append_of_mem hz]

/-- The removals of a list and those of the list with an empty U-0 behind it are the same. -/
theorem removed_withUnknown (removed : List Share) :
    Removed (withUnknown l) removed ↔ Removed l removed := by
  have hstay : ∀ (_ : ∀ y ∈ removed, y.key ≠ .unknown) (z : Share), z.key ≠ .unknown →
      (z ∈ staying (withUnknown l) removed ↔ z ∈ staying l removed) := fun hr z hz => by
    rw [staying_withUnknown hr, List.mem_append, or_iff_left]
    exact fun h => hz (by rw [List.mem_singleton.mp h])
  constructor
  · intro h
    have hr : ∀ y ∈ removed, y.key ≠ .unknown := fun y hy => (h.mem y hy).2
    have hmem : ∀ y ∈ removed, y ∈ l := fun y hy =>
      (List.mem_append.mp (h.mem y hy).1).resolve_right fun he => hr y hy (by rw [List.mem_singleton.mp he])
    refine ⟨fun y hy => ⟨hmem y hy, hr y hy⟩, h.order.imp_of_mem fun hy hz hyz =>
      (removedFirst_withUnknown (hmem _ hy) (hmem _ hz)).mp hyz, fun y hy z hz hk => ?_, ?_, ?_⟩
    · exact (removedFirst_withUnknown (hmem y hy) (List.mem_filter.mp hz).1).mp (h.ahead y hy z ((hstay hr z hk).mpr hz) hk)
    · have := h.count
      rw [staying_withUnknown hr, withUnknown, List.length_append, List.length_append, List.length_singleton] at this
      omega
    · have := h.volume
      rw [staying_withUnknown hr, withUnknown, total_append, total_append] at this
      omega
  · intro h
    have hr : ∀ y ∈ removed, y.key ≠ .unknown := fun y hy => (h.mem y hy).2
    have hmem : ∀ y ∈ removed, y ∈ l := fun y hy => (h.mem y hy).1
    refine ⟨fun y hy => ⟨List.mem_append_left _ (hmem y hy), hr y hy⟩, h.order.imp_of_mem fun hy hz hyz =>
      (removedFirst_withUnknown (hmem _ hy) (hmem _ hz)).mpr hyz, fun y hy z hz hk => ?_, ?_, ?_⟩
    · have hz' := (hstay hr z hk).mp hz
      exact (removedFirst_withUnknown (hmem y hy) (List.mem_filter.mp hz').1).mpr (h.ahead y hy z hz' hk)
    · have := h.count
      rw [staying_withUnknown hr, withUnknown, List.length_append, List.length_append, List.length_singleton]
      omega
    · have := h.volume
      rw [staying_withUnknown hr, withUnknown, total_append, total_append]
      omega

theorem foldedList_withUnknown (hu : .unknown ∉ keysOf l) {removed : List Share} (h : Removed l removed) :
    foldedList (withUnknown l) removed = staying l removed ++ [⟨.unknown, total removed⟩] := by
  rw [foldedList, staying_withUnknown fun y hy => (h.mem y hy).2, List.map_append,
    map_addAt_of_notMem fun hk => hu ((keysOf_sublist (staying_sublist removed)).subset hk)]
  simp [Share.addAt]

/-- Step 1 of R41: the two smallest shares make U-0. -/
theorem makeUnknown_eq (hu : .unknown ∉ keysOf l) (hn : (keysOf l).Nodup) (h : 12 < l.length) :
    ∃ removed, makeUnknown l = (foldedList (withUnknown l) removed, removed) ∧ Removed l removed ∧ removed.length = 2 := by
  obtain ⟨a, x, b, hcut, hx⟩ := exists_removal (l := l) (removed := []) hn (by rw [staying_nil]; omega)
  obtain ⟨h1, hstay1⟩ := (removed_nil l).step hn hcut hx
  have hlen1 := h1.count
  obtain ⟨c, y, d, hcut2, hy⟩ := exists_removal (l := l) (removed := [x]) hn (by
    have := h1.count
    simp only [List.nil_append, List.length_singleton] at this
    omega)
  obtain ⟨h2, hstay2⟩ := Removed.step hn h1 hcut2 hy
  refine ⟨[x, y], ?_, h2, rfl⟩
  have hr1 : removeSmallest l = some (x, staying l [x]) := by
    rw [staying_nil] at hcut
    rw [hcut, hx.removeSmallest, ← hcut]
    exact congrArg (fun m => some (x, m)) hstay1.symm
  have hr2 : removeSmallest (staying l [x]) = some (y, staying l [x, y]) := by
    rw [hcut2, hy.removeSmallest]
    exact congrArg (fun m => some (y, m)) hstay2.symm
  have hno : ¬ hasKey l .unknown = true := fun hk => hu ((hasKey_iff l _).mp hk)
  rw [makeUnknown, if_neg hno, hr1]
  dsimp only
  rw [hr2, foldedList_withUnknown hu (removed := [x, y]) h2]
  rfl

end without

/-- Settles O45: the removals of the list, or of the list with an empty U-0 behind it. -/
theorem truncationFoldsTheSmallestIntoUnknown : Obligations.TruncationFoldsTheSmallestIntoUnknown := by
  intro l hn hlen kept removed first stay
  by_cases hu : Key.unknown ∈ keysOf l
  · have hmake : makeUnknown l = (foldedList l [], []) := by
      have hself : foldedList l [] = l := by
        rw [foldedList, staying_nil]
        exact (List.map_congr_left fun y _ => by unfold Share.addAt; split <;> rfl).trans (List.map_id l)
      rw [hself, makeUnknown, if_pos ((hasKey_iff l _).mpr hu)]
    obtain ⟨r, hr, hrem, h12⟩ := foldSmallest_foldedList hn hu (foldedList l []).length (l.length - 12) (removed_nil l)
      (by rw [staying_nil]; omega) (by rw [foldedList, List.length_map, staying_nil]; omega)
    have htr : truncateList l = (foldedList l r, r) := by
      rw [truncateList, hmake]
      exact hr
    obtain rfl : removed = r := congrArg Prod.snd htr
    have hkept : kept = foldedList l removed := congrArg Prod.fst htr
    have hcount := hrem.count
    refine ⟨?_, ?_, ?_, hrem.mem, hrem.order, hrem.ahead, ?_⟩
    · rw [hkept, foldedList, List.length_map, h12]
    · rw [hkept, total_foldedList hn hu hrem]
    · rw [if_pos hu]
      omega
    · rw [if_pos hu, hkept]
      rfl
  · obtain ⟨r0, hmake, hrem0, hlen0⟩ := makeUnknown_eq hu hn hlen
    have hcount0 := hrem0.count
    have hstay0 : (staying (withUnknown l) r0).length = l.length - 1 := by
      have := ((removed_withUnknown r0).mpr hrem0).count
      rw [withUnknown, List.length_append, List.length_singleton, hlen0] at this
      rw [withUnknown]
      omega
    obtain ⟨r, hr, hrem', h12⟩ := foldSmallest_foldedList (withUnknown_nodup hu hn) (unknown_mem_withUnknown l)
      (foldedList (withUnknown l) r0).length (l.length - 13) ((removed_withUnknown r0).mpr hrem0) (by omega)
      (by rw [foldedList, List.length_map]; omega)
    have htr : truncateList l = (foldedList (withUnknown l) r, r) := by
      rw [truncateList, hmake]
      exact hr
    obtain rfl : removed = r := congrArg Prod.snd htr
    have hkept : kept = foldedList (withUnknown l) removed := congrArg Prod.fst htr
    have hrem := (removed_withUnknown removed).mp hrem'
    have hcount := hrem'.count
    refine ⟨?_, ?_, ?_, hrem.mem, hrem.order, hrem.ahead, ?_⟩
    · rw [hkept, foldedList, List.length_map, h12]
    · rw [hkept, total_foldedList (withUnknown_nodup hu hn) (unknown_mem_withUnknown l) hrem', withUnknown, total_append]
      rfl
    · rw [if_neg hu]
      rw [h12, withUnknown, List.length_append, List.length_singleton] at hcount
      omega
    · rw [if_neg hu, hkept]
      exact foldedList_withUnknown hu hrem

end Sys2Proof.Machine

/-! What a draw yields, O43 (R28 to R32, R72 to R75). -/

namespace Sys2Proof.Machine

open Sys2Proof

/-! ## Portion lists (R28) -/

theorem apportion_zero (ws : List Nat) : apportion 0 ws = ws.map (fun _ => 0) := by
  have hf : (floors 0 ws.sum ws).map Prod.fst = ws.map (fun _ => 0) := by
    rw [floors, List.map_map]
    exact List.map_congr_left fun w _ => by simp
  unfold apportion
  dsimp only
  rw [Nat.zero_sub]
  exact hf

/-- The shares of a list with their portions. -/
def portioned {α : Type} (key : α → Key) (l : List α) (ps : List Nat) : List Share :=
  List.zipWith (fun y p => ⟨key y, p⟩) l ps

theorem portionsOf_map {α : Type} (key : α → Key) (l : List α) (ps : List Nat) :
    portionsOf (l.map key) ps = (portioned key l ps).filter (fun y => y.vol != 0) := by
  rw [portionsOf, portioned, List.zip, List.zipWith_map_left, List.map_zipWith]

/-- Shares at 0 hold no volume. -/
theorem total_filter_ne (l : List Share) : total (l.filter (fun y => y.vol != 0)) = total l := by
  induction l with
  | nil => rfl
  | cons y l ih =>
    by_cases hv : y.vol = 0
    · rw [List.filter_cons_of_neg (by simp [hv]), ih, total_cons, hv, Nat.zero_add]
    · rw [List.filter_cons_of_pos (by simp [hv]), total_cons, total_cons, ih]

theorem placed_filter (l : List Share) (extra : Nat) : placed (l.filter (fun y => y.vol != 0)) extra = placed l extra := by
  have hknown : (l.filter (fun y => y.vol != 0)).filter (fun y => decide (y.key ≠ .unknown ∧ y.vol ≠ 0)) =
      l.filter (fun y => decide (y.key ≠ .unknown ∧ y.vol ≠ 0)) := by
    rw [List.filter_filter]
    exact List.filter_congr fun y _ => by simp
  have hsum : total ((l.filter (fun y => y.vol != 0)).filter (fun y => decide (y.key = .unknown))) =
      total (l.filter (fun y => decide (y.key = .unknown))) := by
    rw [List.filter_filter, ← List.filter_filter, List.filter_comm, total_filter_ne]
  unfold total at hsum
  unfold placed
  dsimp only
  rw [hknown, hsum]

/-- The portion list of a draw, source shares at 0 left out and U-0 last. -/
theorem unknownLast_portionsOf {α : Type} (key : α → Key) (l : List α) (ps : List Nat) (extra : Nat) :
    unknownLast (portionsOf (l.map key) ps) extra = placed (portioned key l ps) extra := by
  rw [portionsOf_map, unknownLast_eq_placed _ _ fun y hy => by simpa using (List.mem_filter.mp hy).2, placed_filter]

/-! ## A draw from a STORE (R30 to R32) -/

section store

variable (s : State) (src dst v tag : Nat)

theorem State.draw_store (h : (s.lin.vessel src).kind = .store) : s.draw src dst v tag = s.drawStore src dst v tag :=
  if_neg (by simp [h])

theorem State.draw_bay (h : (s.lin.vessel src).kind = .bay) : s.draw src dst v tag = s.drawBay src dst v tag :=
  if_pos (by simp [h])

theorem State.drawStore_unseeded (h : (s.lin.vessel src).state = .unseeded) :
    s.drawStore src dst v tag = s.drawUnseeded src dst v tag :=
  if_pos (by simp [h])

theorem State.drawStore_plain (h : (s.lin.vessel src).state ≠ .unseeded) (hv : v ≤ total (s.lin.vessel src).list) :
    s.drawStore src dst v tag = s.drawPlain src v :=
  (if_neg (by simpa using h)).trans (if_pos hv)

theorem State.drawStore_over (h : (s.lin.vessel src).state ≠ .unseeded) (hv : total (s.lin.vessel src).list < v) :
    s.drawStore src dst v tag = s.drawOver src dst v tag :=
  (if_neg (by simpa using h)).trans (if_neg (Nat.not_le.mpr hv))

/-- The shares of a STORE's list behind a draw, those at 0 included. -/
theorem lowered_eq (l : List Share) (ps : List Nat) :
    lowered l ps = List.zipWith (fun y p => { y with vol := y.vol - p }) l ps := by
  rw [lowered, List.zip, List.map_zipWith]

theorem State.drawPlain_eq :
    let x := s.lin.vessel src
    let ps := apportion v (x.list.map Share.vol)
    let after := List.zipWith (fun (y : Share) p => { y with vol := y.vol - p }) x.list ps
    s.drawPlain src v =
      { st := s.setLin (s.lin.setVessel src { x with list := after.filter (fun y => y.vol ≠ 0) })
        portions := placed (List.zipWith (fun (y : Share) p => Share.mk y.key p) x.list ps) 0
        incoming := x.cat
        gone := keysOf (after.filter (fun y => y.vol = 0)) } := by
  intro x ps after
  unfold State.drawPlain
  simp only [lowered_eq, keysOf, unknownLast_portionsOf, bne, beq_eq_decide, ← decide_not]
  rfl

end store

/-! ## A draw from a BAY (R72 to R75) -/

section bay

theorem vset_vget_self {α : Type} {n : Nat} (xs : Vector α n) (i : Nat) (d : α) : vset xs i (vget xs i d) = xs :=
  vec_ext _ d _ fun k hk => by
    rw [vget_vset]
    split
    · rename_i h
      rw [h.1]
    · rfl

theorem Lineage.setRing_self (l : Lineage) (b : Nat) : l.setRing b (l.ring b) = l := by
  unfold Lineage.setRing Lineage.ring
  rw [vset_vget_self]

variable (c : Slot) (tolerance v : Nat)

theorem Slot.normalPortions_eq : c.normalPortions v =
    apportion (min v (c.shares.map CompShare.remaining).sum) (c.shares.map CompShare.remaining) := by
  unfold Slot.normalPortions
  by_cases h : c.normalPart v = 0
  · rw [if_pos (beq_iff_eq.mpr h)]
    change _ = apportion (c.normalPart v) _
    rw [h, apportion_zero, List.map_map]
    rfl
  · exact if_neg (by simpa using h)

theorem Slot.tolerancePortions_eq : c.tolerancePortions tolerance v =
    apportion (c.tolerancePart tolerance v) (c.shares.map CompShare.manifest) := by
  unfold Slot.tolerancePortions
  by_cases h : c.tolerancePart tolerance v = 0
  · rw [if_pos (beq_iff_eq.mpr h), h, apportion_zero, List.map_map]
    rfl
  · exact if_neg (by simpa using h)

theorem Slot.portions_eq (hc : c.tag ≠ .empty) : c.portions tolerance v =
    placed (List.zipWith (fun (y : CompShare) p => Share.mk y.key p) c.shares
      (List.zipWith (· + ·) (c.normalPortions v) (c.tolerancePortions tolerance v))) (c.excessPart tolerance v) := by
  have hz : ∀ xs ys : List Nat, (xs.zip ys).map (fun p => p.1 + p.2) = List.zipWith (· + ·) xs ys := fun xs ys => by
    rw [List.zip, List.map_zipWith]
  unfold Slot.portions
  rw [if_neg (by simpa using hc)]
  dsimp only
  rw [unknownLast_portionsOf, hz]
  rfl

theorem Slot.afterDraw_eq (hc : c.tag ≠ .empty) : c.afterDraw v = { c with
    shares := List.zipWith (fun (y : CompShare) p => { y with remaining := y.remaining - p }) c.shares (c.normalPortions v)
    drawn := if c.tag = .discharging then min (c.drawn + v) (2 ^ 48 - 1) else c.drawn } := by
  unfold Slot.afterDraw
  rw [if_neg (by simpa using hc), List.zip, List.map_zipWith]
  simp only [beq_iff_eq]
  rfl

theorem Slot.excessPart_of_ne (hc : c.tag ≠ .empty) :
    c.excessPart tolerance v = v - c.normalPart v - c.tolerancePart tolerance v :=
  if_neg (by simpa using hc)

theorem Lineage.bayCat_eq (l : Lineage) (ps : List Share) : l.bayCat c ps =
    if Key.unknown ∈ keysOf ps then l.merge (c.shares.foldl (fun a y => l.merge a (l.keyCat y.key)) none) (some 0)
    else c.shares.foldl (fun a y => l.merge a (l.keyCat y.key)) none := by
  unfold Lineage.bayCat Lineage.foldCats
  rw [List.foldl_map]
  exact if_congr (hasKey_iff ps .unknown) rfl rfl

theorem unknownLast_nil {extra : Nat} (h : 0 < extra) : unknownLast [] extra = [⟨.unknown, extra⟩] := by
  simp [unknownLast, volumeOf, total, Nat.ne_of_gt h]

end bay

/-- Settles O43: one equation for each kind of draw. -/
theorem drawsYieldPortionsInSourceOrder : Obligations.DrawsYieldPortionsInSourceOrder := by
  intro s src dst v tag hv x d named
  refine ⟨fun hk hs hle => ?plain, fun hk hs hlt hpos => ?beyond, fun hk hs => ?unseeded, fun hk => ?bay⟩
  case plain =>
    exact ((s.draw_store src dst v tag hk).trans (s.drawStore_plain src dst v tag hs hle)).trans (s.drawPlain_eq src v)
  case beyond =>
    intro excess emptied
    refine ((s.draw_store src dst v tag hk).trans (s.drawStore_over src dst v tag hs hlt)).trans ?_
    unfold State.drawOver
    dsimp only
    rw [unknownLast_eq_placed _ _ fun y hy => (hpos y hy).ne']
    rfl
  case unseeded =>
    exact (s.draw_store src dst v tag hk).trans (s.drawStore_unseeded src dst v tag hs)
  case bay =>
    intro ring c M vn vt ve normal spread portions after fold u
    have hd : d = s.drawBay src dst v tag := s.draw_bay src dst v tag hk
    refine ⟨fun hc => ?empty, fun hc => ?loaded⟩
    case empty =>
      have hring : ring.slots = vset ring.slots ring.disch (c.afterDraw v) := by
        have hself : c.afterDraw v = c := if_pos (by rw [hc]; rfl)
        rw [hself]
        exact (vset_vget_self ring.slots ring.disch {}).symm
      have hp : c.portions x.tolerance v = [⟨.unknown, v⟩] := by
        rw [hc]
        exact unknownLast_nil hv
      have he : c.excessPart x.tolerance v = v := if_pos (by rw [hc]; rfl)
      have hset : s.lin.setRing x.bayIndex { ring with slots := vset ring.slots ring.disch (c.afterDraw v) } = s.lin := by
        rw [← hring]
        exact s.lin.setRing_self x.bayIndex
      have hcat : s.lin.bayCat c [⟨.unknown, v⟩] = some 0 := by
        rw [Lineage.bayCat_eq, if_pos (by simp [keysOf]), hc]
        rfl
      rw [hd]
      unfold State.drawBay
      dsimp only
      rw [show (s.lin.ring (s.lin.vessel src).bayIndex).dischSlot = c from rfl, hp, he, hset, hcat,
        if_neg (by simpa using hv.ne'), hc]
      rfl
    case loaded =>
      have hnorm : c.normalPortions v = normal := c.normalPortions_eq v
      have htol : c.tolerancePortions x.tolerance v = spread := c.tolerancePortions_eq x.tolerance v
      have he : c.excessPart x.tolerance v = ve := c.excessPart_of_ne x.tolerance v hc
      have hp : c.portions x.tolerance v = portions := by
        rw [c.portions_eq x.tolerance v hc, hnorm, htol, he]
      have hafter : c.afterDraw v = after := by rw [c.afterDraw_eq v hc, hnorm]
      rw [hd]
      unfold State.drawBay
      dsimp only
      rw [show (s.lin.ring (s.lin.vessel src).bayIndex).dischSlot = c from rfl, hp, he, hafter, Lineage.bayCat_eq]
      simp only [beq_iff_eq]
      rfl

end Sys2Proof.Machine

/-! The merge of a portion list, O44 (R33, R38 to R41, R45): one equation per outcome. -/

namespace Sys2Proof.Machine

open Sys2Proof

theorem insertLowest_length {α : Type} (r : α) (l : List (Nat × α)) (i : Nat) :
    (insertLowest r i l).length = l.length + 1 := by
  induction l generalizing i with
  | nil => rfl
  | cons x l ih =>
    obtain ⟨j, y⟩ := x
    rw [insertLowest]
    split
    · rw [List.length_cons, List.length_cons, ih]
    · rfl

theorem Lineage.freeBlends_zero (l : Lineage) : l.freeBlends = 0 ↔ 1024 ≤ l.blends.length :=
  Nat.sub_eq_zero_iff_le

/-- The state with a blend of some members formed in a vessel (R40, R45). -/
def State.blended (s : State) (dst : Nat) (cat : Cat) (members : List Share) (tag : Nat) : State :=
  (s.formBlend dst cat members tag).1

theorem State.blended_blends (s : State) (dst : Nat) (cat : Cat) (members : List Share) (tag : Nat) :
    (s.blended dst cat members tag).lin.blends.length = s.lin.blends.length + 1 :=
  insertLowest_length ..

section merge

variable (dst : Nat) (pre ps : List Share) (incoming : Cat) (tag : Nat)

theorem Merged.stepB_full {m : Merged} {base list : List Share} (h : 1024 ≤ m.st.lin.blends.length) :
    m.stepB dst base list ps incoming tag =
      { m with st := (m.st.truncate dst list tag).1, final := (truncateList list).1, truncated := true } :=
  if_pos (beq_iff_eq.mpr ((Lineage.freeBlends_zero _).mpr h))

theorem Merged.stepB_room {m : Merged} {base list : List Share} (hn : (keysOf ps).Nodup)
    (h : m.st.lin.blends.length < 1024) :
    let known := ps.filter (fun y => y.key ≠ .unknown)
    m.stepB dst base list ps incoming tag =
      { m with
        st := m.st.blended dst incoming known tag
        final := joined (base ++ [⟨.blend m.st.lin.issueBlend, total known⟩]) (ps.filter (fun y => y.key = .unknown))
        blendB := some (.blend m.st.lin.issueBlend)
        members := m.members ++ keysOf known } := by
  intro known
  have hroom : ¬ (m.st.lin.freeBlends == 0) = true :=
    mt (fun e => (Lineage.freeBlends_zero _).mp (beq_iff_eq.mp e)) (Nat.not_le.mpr h)
  have hk : ps.filter (fun x => x.key != .unknown) = known :=
    List.filter_congr fun y _ => by simp [bne, beq_eq_decide]
  have hu : ps.filter (fun x => x.key == .unknown) = ps.filter (fun y => y.key = .unknown) :=
    List.filter_congr fun y _ => by simp [beq_eq_decide]
  have hnu : (keysOf (ps.filter (fun y => decide (y.key = .unknown)))).Nodup :=
    hn.sublist (keysOf_sublist List.filter_sublist)
  unfold Merged.stepB
  rw [if_neg hroom]
  dsimp only
  rw [hk, hu, mergeInto_eq_joined _ _ hnu]
  rfl

section cases

variable {s : State} {pre ps} (hn : (keysOf ps).Nodup)
include hn

theorem State.mergeList_short (h : (joined pre ps).length ≤ 12) : s.mergeList dst pre ps incoming tag =
    { st := s, final := joined pre ps, blendA := none, blendB := none, members := [], truncated := false } := by
  unfold State.mergeList
  dsimp only
  rw [mergeInto_eq_joined _ _ hn]
  exact if_pos h

variable (h : 12 < (joined pre ps).length)
include h

theorem State.mergeList_full (hf : 1024 ≤ s.lin.blends.length) : s.mergeList dst pre ps incoming tag =
    { st := (s.truncate dst (joined pre ps) tag).1, final := (truncateList (joined pre ps)).1, blendA := none,
      blendB := none, members := [], truncated := true } := by
  unfold State.mergeList
  dsimp only
  rw [mergeInto_eq_joined _ _ hn, if_neg (show ¬ (joined pre ps).length ≤ Config.shareMax from Nat.not_le.mpr h)]
  split
  · exact Merged.stepB_full dst ps incoming tag hf
  · rw [if_pos (beq_iff_eq.mpr ((Lineage.freeBlends_zero _).mpr hf))]
    rfl

variable (hr : s.lin.blends.length < 1024)
include hr

theorem State.mergeList_single (hp : pre.length < 2) :
    let known := ps.filter (fun y => y.key ≠ .unknown)
    s.mergeList dst pre ps incoming tag =
      { st := s.blended dst incoming known tag
        final := joined (pre ++ [⟨.blend s.lin.issueBlend, total known⟩]) (ps.filter (fun y => y.key = .unknown))
        blendA := none, blendB := some (.blend s.lin.issueBlend), members := keysOf known, truncated := false } := by
  intro known
  unfold State.mergeList
  dsimp only
  rw [mergeInto_eq_joined _ _ hn, if_neg (show ¬ (joined pre ps).length ≤ Config.shareMax from Nat.not_le.mpr h),
    if_pos hp]
  exact Merged.stepB_room dst ps incoming tag hn hr

/-- With a free entry, a destination of two shares or more becomes one blend, then step (b) where need be. -/
theorem State.mergeList_blendA (hp : 2 ≤ pre.length) :
    let u := s.blended dst (s.lin.catOf (s.lin.vessel dst)) pre tag
    let base : List Share := [⟨.blend s.lin.issueBlend, total pre⟩]
    let a : Merged :=
      { st := u, final := joined base ps, blendA := some (.blend s.lin.issueBlend), blendB := none, members := keysOf pre,
        truncated := false }
    s.mergeList dst pre ps incoming tag =
      if (joined base ps).length ≤ 12 then a else a.stepB dst base (joined base ps) ps incoming tag := by
  intro u base a
  have hroom : ¬ (s.lin.freeBlends == 0) = true :=
    mt (fun e => (Lineage.freeBlends_zero _).mp (beq_iff_eq.mp e)) (Nat.not_le.mpr hr)
  unfold State.mergeList
  dsimp only
  rw [mergeInto_eq_joined _ _ hn, if_neg (show ¬ (joined pre ps).length ≤ Config.shareMax from Nat.not_le.mpr h),
    if_neg (Nat.not_lt.mpr hp), if_neg hroom, mergeInto_eq_joined _ _ hn]
  rfl

end cases

end merge

theorem issueSerial_free {taken : Nat → Bool} {c : Nat} (h : taken c = false) (fuel : Nat) :
    issueSerial taken fuel c = c := by
  cases fuel with
  | zero => rfl
  | succ n => exact if_neg (by simp [h])

/-- Settles O44: each outcome of the merge is one of its equations. -/
theorem mergesCollapseOrTruncate : Obligations.MergesCollapseOrTruncate := by
  intro s dst pre ps incoming tag hn m named merged known unknown keyIn formed cut resident
  refine ⟨fun h => State.mergeList_short dst incoming tag hn h, fun h => ⟨fun hf => ?_, fun hr hp => ?_, fun hr hp => ?_⟩,
    fun h => issueSerial_free h _, fun l hl h1 h2 => l.issueBlend_firstFree (by omega) h1 h2⟩
  · exact State.mergeList_full dst incoming tag hn h hf
  · exact State.mergeList_single dst incoming tag hn h hr hp
  · intro u base redone
    have hm : m = _ := State.mergeList_blendA dst incoming tag hn h hr hp
    have hu : u.lin.blends.length = s.lin.blends.length + 1 := s.blended_blends dst _ pre tag
    refine ⟨fun hle => hm.trans (if_pos hle), fun hlt => ⟨fun hf => ?_, fun hroom => ?_⟩⟩
    · refine (hm.trans (if_neg (Nat.not_le.mpr hlt))).trans (Merged.stepB_full dst ps incoming tag ?_)
      exact (Nat.succ_le_succ hf).trans_eq hu.symm
    · refine (hm.trans (if_neg (Nat.not_le.mpr hlt))).trans (Merged.stepB_room dst ps incoming tag hn ?_)
      exact lt_of_eq_of_lt hu (Nat.succ_lt_succ hroom)

end Sys2Proof.Machine

/-! The destination of a transfer as one content, a STORE's or its filler's open batch, and what each stage of a
transfer puts there (R33 to R42). -/

namespace Sys2Proof.Machine

open Sys2Proof

/-- What a destination holds: a STORE's fields, or those of a filler's open batch. -/
structure Content where
  list : List Share
  cat : Cat
  uncertain : Bool
  suspect : Bool

/-- A STORE with a content. -/
def Content.intoVessel (c : Content) (x : Vessel) : Vessel :=
  { x with list := c.list, cat := c.cat, uncertain := c.uncertain, suspect := c.suspect }

/-- A batch with a content; its mismatch flag follows a change of its category (R109). -/
def Content.intoBatch (l : Lineage) (c : Content) (b : Batch) : Batch :=
  { b with
    list := c.list, cat := c.cat, uncertain := c.uncertain, suspect := c.suspect
    mismatch := if c.cat = b.cat then b.mismatch else l.mismatched b.declared c.cat }

/-- The content of a destination. -/
def Lineage.contentOf (l : Lineage) (dst : Nat) : Content :=
  let x := l.vessel dst
  { list := l.listOf x, cat := l.catOf x, uncertain := l.uncertainOf x, suspect := l.suspectOf x }

/-- The content of a destination replaced. -/
def Lineage.putContent (l : Lineage) (dst : Nat) (c : Content) : Lineage :=
  let x := l.vessel dst
  if x.kind = .filler then l.modifyOpenOf x (c.intoBatch l) else l.setVessel dst (c.intoVessel x)

/-- A vessel that a transfer may deliver into: a STORE, or a FILLER with an open batch. -/
inductive Receives (l : Lineage) (dst : Nat) : Prop
  | store (hk : (l.vessel dst).kind = .store)
  | filler {f : Nat} {older : List Batch} {o : Batch} (hk : (l.vessel dst).kind = .filler)
      (hf : (l.vessel dst).fillerIndex = f) (h8 : f < 8) (hs : (l.filler f).state = .batchOpen)
      (hr : (l.filler f).ring = older ++ [o])

section store

variable {l : Lineage} {dst : Nat} (hk : (l.vessel dst).kind = .store)
include hk

theorem Lineage.contentOf_store : l.contentOf dst =
    ⟨(l.vessel dst).list, (l.vessel dst).cat, (l.vessel dst).uncertain, (l.vessel dst).suspect⟩ := by
  simp only [Lineage.contentOf, Lineage.listOf, Lineage.catOf, Lineage.uncertainOf, Lineage.suspectOf, hk]

theorem Lineage.putContent_store (c : Content) : l.putContent dst c = l.setVessel dst (c.intoVessel (l.vessel dst)) :=
  if_neg (by rw [hk]; nofun)

end store

section filler

variable {l : Lineage} {dst f : Nat} {older : List Batch} {o : Batch} (hk : (l.vessel dst).kind = .filler)
  (hf : (l.vessel dst).fillerIndex = f) (hs : (l.filler f).state = .batchOpen) (hr : (l.filler f).ring = older ++ [o])
include hk hf hs hr

omit hk in
theorem Lineage.openBatchOf_concat : l.openBatchOf (l.vessel dst) = some o := by
  rw [Lineage.openBatchOf, hf]
  exact Filler.openBatch_concat hs hr

theorem Lineage.contentOf_filler : l.contentOf dst = ⟨o.list, o.cat, o.uncertain, o.suspect⟩ := by
  have ho := Lineage.openBatchOf_concat hf hs hr
  simp only [Lineage.contentOf, Lineage.listOf, Lineage.catOf, Lineage.uncertainOf, Lineage.suspectOf, hk, ho]

omit hk in
theorem Lineage.modifyOpenOf_concat (g : Batch → Batch) : l.modifyOpenOf (l.vessel dst) g =
    l.setFiller f { l.filler f with ring := older ++ [g o] } := by
  rw [Lineage.modifyOpenOf, hf, Filler.modifyOpen_of_open g hs hr]

theorem Lineage.putContent_filler (c : Content) : l.putContent dst c =
    l.setFiller f { l.filler f with ring := older ++ [c.intoBatch l o] } :=
  (if_pos hk).trans (Lineage.modifyOpenOf_concat hf hs hr _)

end filler

section content

variable {l : Lineage} {dst : Nat} (h : Receives l dst)

theorem Receives.lt (h : Receives l dst) : dst < 64 := by
  cases h with
  | store hk => exact l.vessel_lt (by rw [hk]; decide)
  | filler hk => exact l.vessel_lt (by rw [hk]; decide)

theorem Lineage.vessel_putContent_ne (l : Lineage) (c : Content) {u : Nat} (hu : dst ≠ u) :
    (l.putContent dst c).vessel u = l.vessel u := by
  unfold Lineage.putContent
  dsimp only
  split
  · rfl
  · exact Lineage.setVessel_ne hu _

include h

/-- The content put is the content read. -/
theorem Lineage.contentOf_putContent (c : Content) : (l.putContent dst c).contentOf dst = c := by
  cases h with
  | store hk =>
    rw [Lineage.putContent_store hk, Lineage.contentOf_store]
    · rw [Lineage.setVessel_same (l.vessel_lt (by rw [hk]; decide))]
      rfl
    · rw [Lineage.setVessel_same (l.vessel_lt (by rw [hk]; decide))]
      exact hk
  | @filler f older o hk hf h8 hs hr =>
    rw [Lineage.putContent_filler hk hf hs hr]
    exact Lineage.contentOf_filler (o := c.intoBatch l o) hk hf (by rw [Lineage.setFiller_same h8]; exact hs)
      (by rw [Lineage.setFiller_same h8])

theorem Receives.putContent (c : Content) : Receives (l.putContent dst c) dst := by
  cases h with
  | store hk =>
    refine .store ?_
    rw [Lineage.putContent_store hk, Lineage.setVessel_same (l.vessel_lt (by rw [hk]; decide))]
    exact hk
  | @filler f older o hk hf h8 hs hr =>
    rw [Lineage.putContent_filler hk hf hs hr]
    exact .filler (o := c.intoBatch l o) hk hf h8 (by rw [Lineage.setFiller_same h8]; exact hs)
      (by rw [Lineage.setFiller_same h8])

/-- Of two contents put in turn the second stands, the category having changed at most once. -/
theorem Lineage.putContent_putContent {c d : Content} (hcat : d.cat = c.cat ∨ c.cat = (l.contentOf dst).cat) :
    (l.putContent dst c).putContent dst d = l.putContent dst d := by
  cases h with
  | store hk =>
    have hlt : dst < 64 := l.vessel_lt (by rw [hk]; decide)
    rw [Lineage.putContent_store hk, Lineage.putContent_store hk, Lineage.putContent_store]
    · rw [Lineage.setVessel_same hlt, Lineage.setVessel_setVessel]
      rfl
    · rw [Lineage.setVessel_same hlt]
      exact hk
  | @filler f older o hk hf h8 hs hr =>
    rw [Lineage.contentOf_filler hk hf hs hr] at hcat
    rw [Lineage.putContent_filler hk hf hs hr, Lineage.putContent_filler hk hf hs hr]
    refine (Lineage.putContent_filler (l := l.setFiller f { l.filler f with ring := older ++ [c.intoBatch l o] })
      (o := c.intoBatch l o) (older := older) hk hf
      (by rw [Lineage.setFiller_same h8]; exact hs) (by rw [Lineage.setFiller_same h8]) d).trans ?_
    rw [Lineage.setFiller_setFiller, Lineage.setFiller_same h8]
    have hbatch : d.intoBatch (l.setFiller f { l.filler f with ring := older ++ [c.intoBatch l o] }) (c.intoBatch l o) =
        d.intoBatch l o := by
      have hmis : (if d.cat = c.cat then (if c.cat = o.cat then o.mismatch else l.mismatched o.declared c.cat)
          else l.mismatched o.declared d.cat) = if d.cat = o.cat then o.mismatch else l.mismatched o.declared d.cat := by
        rcases hcat with e | e
        · rw [if_pos e, e]
        · rw [if_pos e, e]
      unfold Content.intoBatch
      change ({ o with
        list := d.list, cat := d.cat, uncertain := d.uncertain, suspect := d.suspect
        mismatch := if d.cat = c.cat then (if c.cat = o.cat then o.mismatch else l.mismatched o.declared c.cat)
          else l.mismatched o.declared d.cat } : Batch) = _
      rw [hmis]
    rw [hbatch]

/-- Putting back what is there changes nothing. -/
theorem Lineage.putContent_self : l.putContent dst (l.contentOf dst) = l := by
  cases h with
  | store hk =>
    rw [Lineage.putContent_store hk, Lineage.contentOf_store hk]
    exact congrArg (fun xs : Vector Vessel 64 => { l with vessels := xs }) (vset_vget_self l.vessels dst {})
  | @filler f older o hk hf h8 hs hr =>
    rw [Lineage.putContent_filler hk hf hs hr, Lineage.contentOf_filler hk hf hs hr]
    have hb : (⟨o.list, o.cat, o.uncertain, o.suspect⟩ : Content).intoBatch l o = o := by
      unfold Content.intoBatch
      rw [if_pos rfl]
    rw [hb, ← hr]
    exact congrArg (fun xs : Vector Filler 8 => { l with fillers := xs }) (vset_vget_self l.fillers f {})

/-! ## The operations on a destination -/

theorem Lineage.setList_eq (xs : List Share) :
    l.setList dst xs = l.putContent dst { l.contentOf dst with list := xs } := by
  cases h with
  | store hk =>
    rw [Lineage.putContent_store hk, Lineage.contentOf_store hk]
    unfold Lineage.setList
    dsimp only
    split
    · rename_i h
      exact absurd (hk.symm.trans h) nofun
    · rfl
  | @filler f older o hk hf h8 hs hr =>
    rw [Lineage.putContent_filler hk hf hs hr, Lineage.contentOf_filler hk hf hs hr]
    simp only [Lineage.setList, hk]
    rw [Lineage.modifyOpenOf_concat hf hs hr]
    unfold Content.intoBatch
    rw [if_pos rfl]

theorem Lineage.setCat_eq (cat : Cat) : l.setCat dst cat = l.putContent dst { l.contentOf dst with cat := cat } := by
  cases h with
  | store hk =>
    rw [Lineage.putContent_store hk, Lineage.contentOf_store hk]
    unfold Lineage.setCat
    dsimp only
    split
    · rename_i h
      exact absurd (hk.symm.trans h) nofun
    · rfl
  | @filler f older o hk hf h8 hs hr =>
    rw [Lineage.putContent_filler hk hf hs hr, Lineage.contentOf_filler hk hf hs hr]
    simp only [Lineage.setCat, hk]
    rw [Lineage.modifyOpenOf_concat hf hs hr]
    unfold Content.intoBatch
    by_cases e : cat = o.cat
    · rw [if_pos (beq_iff_eq.mpr e), if_pos e, e]
    · rw [if_neg (by simpa using e), if_neg e]

theorem Lineage.setUncertain_eq : l.setUncertain dst = l.putContent dst { l.contentOf dst with uncertain := true } := by
  cases h with
  | store hk =>
    rw [Lineage.putContent_store hk, Lineage.contentOf_store hk]
    rw [Lineage.setUncertain_own l (.inl hk), Vessel.doubted_of_own (.inl hk)]
    rfl
  | @filler f older o hk hf h8 hs hr =>
    rw [Lineage.putContent_filler hk hf hs hr, Lineage.contentOf_filler hk hf hs hr]
    simp only [Lineage.setUncertain, hk]
    rw [Lineage.modifyOpenOf_concat hf hs hr]
    unfold Content.intoBatch
    rw [if_pos rfl]

theorem Lineage.rederive_eq : l.rederive dst =
    l.putContent dst { l.contentOf dst with suspect := l.listSuspect (keysOf (l.contentOf dst).list) } := by
  cases h with
  | store hk =>
    rw [Lineage.putContent_store hk, Lineage.contentOf_store hk]
    exact l.rederive_store hk
  | @filler f older o hk hf h8 hs hr =>
    rw [Lineage.putContent_filler hk hf hs hr, Lineage.contentOf_filler hk hf hs hr]
    simp only [Lineage.rederive, hk]
    rw [Lineage.modifyOpenOf_concat hf hs hr]
    unfold Content.intoBatch
    rw [if_pos rfl]
    rfl

end content

end Sys2Proof.Machine

/-! The opening of a batch (R97 to R106), O55: an open batch is closed, a full ring loses its oldest, the new batch
joins, and its code is offered to the coder. -/

namespace Sys2Proof.Machine

open Sys2Proof

/-! ## States that raise alike -/

/-- Two states whose raises leave the same holds and the same journal. -/
structure SameVoice (s t : State) : Prop where
  hold : t.hold = s.hold
  jrn : t.jrn = s.jrn
  now : t.now = s.now
  carriers : ∀ f, t.lin.fillerVessel f = s.lin.fillerVessel f

section voice

variable {s t u : State}

theorem SameVoice.refl (s : State) : SameVoice s s := ⟨rfl, rfl, rfl, fun _ => rfl⟩

theorem SameVoice.trans (h : SameVoice s t) (k : SameVoice t u) : SameVoice s u :=
  ⟨k.hold.trans h.hold, k.jrn.trans h.jrn, k.now.trans h.now, fun f => (k.carriers f).trans (h.carriers f)⟩

theorem SameVoice.setLin (s : State) {l : Lineage} (h : ∀ f, l.fillerVessel f = s.lin.fillerVessel f) :
    SameVoice s (s.setLin l) := ⟨rfl, rfl, rfl, h⟩

theorem SameVoice.setPort (s : State) (p : Port) (x : PortState) : SameVoice s (s.setPort p x) := by
  cases p <;> exact ⟨rfl, rfl, rfl, fun _ => rfl⟩

theorem SameVoice.raise (h : SameVoice s t) (tag : Nat) (filler : Option Nat) (c : CondVals) :
    SameVoice (s.raise tag filler c) (t.raise tag filler c) := by
  have ht : ∀ p, t.lin.latchTargets p filler = s.lin.latchTargets p filler := fun p => by
    cases p <;> simp only [Lineage.latchTargets, h.carriers]
  rw [State.raise_eq, State.raise_eq]
  refine ⟨?_, ?_, h.now, h.carriers⟩
  · simp only [h.hold, ht]
  · simp only [State.conditionRec, h.hold, h.jrn, h.now, ht]

theorem SameVoice.write (h : SameVoice s t) (tag : Nat) (p : Payload) : SameVoice (s.write tag p) (t.write tag p) :=
  ⟨h.hold, by rw [State.write_jrn, State.write_jrn, h.jrn, h.now], h.now, h.carriers⟩

theorem SameVoice.raises (tag : Nat) (filler : Option Nat) (cs : List CondVals) (h : SameVoice s t) :
    SameVoice (cs.foldl (fun u c => u.raise tag filler c) s) (cs.foldl (fun u c => u.raise tag filler c) t) := by
  induction cs generalizing s t with
  | nil => exact h
  | cons c cs ih => exact ih (h.raise tag filler c)

end voice

/-! ## Serials and codes (R100, R105) -/

section serials

variable (l : Lineage)

theorem Lineage.batchTaken_iff (n : Nat) :
    l.fillers.toList.any (fun f => f.ring.any (fun b => b.serial == n)) = true ↔
      ∃ g, g < 8 ∧ ∃ b ∈ (l.filler g).ring, b.serial = n := by
  rw [List.any_eq_true]
  simp only [List.any_eq_true, beq_iff_eq]
  constructor
  · rintro ⟨x, hx, h⟩
    obtain ⟨g, hg, rfl⟩ := List.mem_iff_getElem.mp hx
    have hg8 : g < 8 := by simpa using hg
    exact ⟨g, hg8, by rw [Lineage.filler, vget_lt _ _ _ hg8]; exact h⟩
  · rintro ⟨g, hg, h⟩
    rw [Lineage.filler, vget_lt _ _ _ hg] at h
    exact ⟨_, by simp, h⟩

theorem Lineage.issueBatch_free (h : ∀ g, g < 8 → ∀ b ∈ (l.filler g).ring, b.serial ≠ l.batchNext) :
    l.issueBatch = l.batchNext :=
  issueSerial_free (Bool.eq_false_iff.mpr fun ht => by
    obtain ⟨g, hg, b, hb, e⟩ := (l.batchTaken_iff _).mp ht
    exact h g hg b hb e) _

theorem Lineage.issueBatch_firstFree (h : ∀ g, g < 8 → (l.filler g).ring.length ≤ 8) (h1 : 1 ≤ l.batchNext)
    (h2 : l.batchNext ≤ 268435455) :
    FirstFreeSerial (fun n => ∃ g, g < 8 ∧ ∃ b ∈ (l.filler g).ring, b.serial = n) l.batchNext l.issueBatch := by
  let serials := l.fillers.toList.flatMap (fun f => f.ring.map Batch.serial)
  have hlen : serials.length = (l.fillers.toList.map (fun f => f.ring.length)).sum := by
    simp [serials, List.length_flatMap]
  have hsmall : (l.fillers.toList.map (fun f => f.ring.length)).sum ≤ 64 := by
    refine (List.sum_le_card_nsmul _ 8 fun n hn => ?_).trans (by simp)
    obtain ⟨x, hx, rfl⟩ := List.mem_map.mp hn
    obtain ⟨g, hg, rfl⟩ := List.mem_iff_getElem.mp hx
    have hg8 : g < 8 := by simpa using hg
    have := h g hg8
    rwa [Lineage.filler, vget_lt _ _ _ hg8] at this
  have hfree := issueSerial_firstFree (fun n => l.fillers.toList.any (fun f => f.ring.any (fun b => b.serial == n)))
    serials l.batchNext (fun n hn => by
      obtain ⟨x, hx, hb⟩ := List.any_eq_true.mp hn
      obtain ⟨b, hb, he⟩ := List.any_eq_true.mp hb
      exact List.mem_flatMap.mpr ⟨x, hx, List.mem_map.mpr ⟨b, hb, beq_iff_eq.mp he⟩⟩) ⟨h1, h2⟩ (by omega)
  rw [hlen] at hfree
  simp only [Lineage.batchTaken_iff] at hfree
  exact hfree

theorem Lineage.issueBatch_congr {l k : Lineage} (hr : ∀ g, g < 8 → (k.filler g).ring = (l.filler g).ring)
    (hn : k.batchNext = l.batchNext) : k.issueBatch = l.issueBatch := by
  have hmap : k.fillers.toList.map Filler.ring = l.fillers.toList.map Filler.ring := by
    refine List.ext_getElem (by simp) fun g hg hg' => ?_
    have hg8 : g < 8 := by simpa using hg
    have := hr g hg8
    rw [Lineage.filler, Lineage.filler, vget_lt _ _ _ hg8, vget_lt _ _ _ hg8] at this
    simpa using this
  have hany : ∀ m : Lineage, ∀ n, m.fillers.toList.any (fun f => f.ring.any (fun b => b.serial == n)) =
      (m.fillers.toList.map Filler.ring).any (fun r => r.any (fun b => b.serial == n)) := fun m n => by
    rw [List.any_map]
    rfl
  have hsum : ∀ m : Lineage, m.fillers.toList.map (fun f => f.ring.length) =
      (m.fillers.toList.map Filler.ring).map List.length := fun m => by
    rw [List.map_map]
    rfl
  unfold Lineage.issueBatch
  simp only [hany, hsum, hmap, hn]

end serials

theorem composeCode_digits (plant number day seq : Nat) : composeCode plant number day seq % 97 = 1 ∧
    composeCode plant number day seq / 100 = plant * 10 ^ 12 + number * 10 ^ 10 + day * 10 ^ 5 + seq := by
  unfold composeCode codeCheck
  change _ ∧ _ = codeBody plant number day seq
  generalize codeBody plant number day seq = n
  omega

/-! ## The stages of an opening (R102) -/

section opening

variable (x : Filler) (now : TimeStamp)

/-- A filler's ring with its open batch closed as SUPERSEDED. -/
def Filler.closedRing : List Batch :=
  if x.state = .batchOpen then modifyLast (fun b => b.closedAs now .superseded) x.ring else x.ring

/-- The ring without the oldest batch, where it is full. -/
def Filler.keptRing : List Batch :=
  if x.ring.length < 8 then x.closedRing now else (x.closedRing now).drop 1

/-- The batch a full ring loses. -/
def Filler.evicted : Option Batch :=
  if x.ring.length < 8 then none else (x.closedRing now).head?

/-- The records of the close. -/
def Filler.supersededRecs : List Payload :=
  if x.state = .batchOpen then ((x.closedRing now).getLast?.map (Payload.batchClosed · none)).toList else []

theorem Filler.closedRing_length : (x.closedRing now).length = x.ring.length := by
  unfold Filler.closedRing
  split
  · exact modifyLast_length _ _
  · rfl

/-- The keys that an eviction releases. -/
def Filler.evictedKeys : List Key :=
  if x.ring.length < 8 then [] else ((x.closedRing now).head?.map (fun o => keysOf o.list)).getD []

end opening

section stages

variable (s : State) (f tag : Nat)

/-- Step 1: the close of the open batch, if there is one. -/
theorem State.closeBatch_superseded : ∃ st tm, s.closeBatch f .superseded tag none .idle =
    { s with
      lin := s.lin.setFiller f { s.lin.filler f with
        state := st, timer := tm, ring := (s.lin.filler f).closedRing s.now }
      jrn := s.jrn.writeAll s.now tag ((s.lin.filler f).supersededRecs s.now) } := by
  have hself : s.lin.setFiller f (s.lin.filler f) = s.lin :=
    congrArg (fun xs : Vector Filler 8 => { s.lin with fillers := xs }) (vset_vget_self s.lin.fillers f {})
  by_cases hopen : (s.lin.filler f).state = .batchOpen
  · rcases List.eq_nil_or_concat (s.lin.filler f).ring with hr | ⟨older, b, hr⟩
    · refine ⟨(s.lin.filler f).state, (s.lin.filler f).timer, ?_⟩
      have hnone : (s.lin.filler f).openBatch = none := by rw [Filler.openBatch, hopen, hr]; rfl
      have hc : (s.lin.filler f).closedRing s.now = (s.lin.filler f).ring := by
        rw [Filler.closedRing, if_pos hopen, hr]
        rfl
      have hrec : (s.lin.filler f).supersededRecs s.now = [] := by
        rw [Filler.supersededRecs, if_pos hopen, hc, hr]
        rfl
      rw [hc, hrec]
      simp only [State.closeBatch, hnone]
      exact (congrArg s.setLin hself).symm
    · rw [List.concat_eq_append] at hr
      have hc : (s.lin.filler f).closedRing s.now = older ++ [b.closedAs s.now .superseded] := by
        rw [Filler.closedRing, if_pos hopen, hr, modifyLast_concat]
      have hrec : (s.lin.filler f).supersededRecs s.now = [.batchClosed (b.closedAs s.now .superseded) none] := by
        rw [Filler.supersededRecs, if_pos hopen, hc, List.getLast?_concat]
        rfl
      exact ⟨.idle, none, by rw [hc, hrec, State.closeBatch_concat hopen hr]⟩
  · refine ⟨(s.lin.filler f).state, (s.lin.filler f).timer, ?_⟩
    have hnone : (s.lin.filler f).openBatch = none := Filler.openBatch_of_idle hopen
    have hc : (s.lin.filler f).closedRing s.now = (s.lin.filler f).ring := if_neg hopen
    have hrec : (s.lin.filler f).supersededRecs s.now = [] := if_neg hopen
    rw [hc, hrec]
    simp only [State.closeBatch, hnone]
    exact (congrArg s.setLin hself).symm

/-- Step 2 on a filler as it stands. -/
theorem State.evict_eq {u : State} {f : Nat} {y : Filler} (hy : u.lin.filler f = y) : u.evict f =
    if y.ring.length < 8 then (u, none) else
      (u.setLin ((u.lin.setFiller f { y with ring := y.ring.drop 1 }).releaseAll
        ((y.ring.head?.map (fun o => keysOf o.list)).getD [])), y.ring.head?.map Batch.serial) := by
  subst hy
  unfold State.evict
  dsimp only
  generalize u.lin.filler f = y
  obtain ⟨state, lastCarton, seen, seq, lastFlow, timer, pendingIdle, ring⟩ := y
  cases ring with
  | nil => rfl
  | cons o rest => rfl

/-- The state behind steps 1 and 2. -/
def State.ringReady (st : FillerState) (tm : Option Nat) : State :=
  { s with
    lin := (s.lin.withRecords (s.lin.releaseAll ((s.lin.filler f).evictedKeys s.now))).setFiller f { s.lin.filler f with
      state := st, timer := tm, ring := (s.lin.filler f).keptRing s.now }
    jrn := s.jrn.writeAll s.now tag ((s.lin.filler f).supersededRecs s.now) }

/-- Steps 1 and 2: the ring as the new batch finds it. -/
theorem State.closeEvict_eq (hf : f < 8) : ∃ st tm, (s.closeBatch f .superseded tag none .idle).evict f =
    (s.ringReady f tag st tm, ((s.lin.filler f).evicted s.now).map Batch.serial) := by
  obtain ⟨st, tm, hclose⟩ := s.closeBatch_superseded f tag
  refine ⟨st, tm, ?_⟩
  rw [hclose, State.ringReady]
  generalize hx : s.lin.filler f = x
  have hlen := x.closedRing_length s.now
  have hfiller : (s.lin.setFiller f { x with state := st, timer := tm, ring := x.closedRing s.now }).filler f =
      { x with state := st, timer := tm, ring := x.closedRing s.now } := Lineage.setFiller_same hf _
  rw [State.evict_eq (u := { s with
    lin := s.lin.setFiller f { x with state := st, timer := tm, ring := x.closedRing s.now }
    jrn := s.jrn.writeAll s.now tag (x.supersededRecs s.now) }) hfiller]
  by_cases hshort : x.ring.length < 8
  · rw [if_pos (hlen.trans_lt hshort)]
    simp only [Filler.keptRing, Filler.evicted, Filler.evictedKeys, if_pos hshort]
    rfl
  · rw [if_neg (by rw [hlen]; exact hshort)]
    simp only [Filler.keptRing, Filler.evicted, Filler.evictedKeys, if_neg hshort, Lineage.setFiller_setFiller]
    rw [show ∀ y ks, (s.lin.setFiller f y).releaseAll ks = (s.lin.withRecords (s.lin.releaseAll ks)).setFiller f y from
      fun y ks => Lineage.releaseAll_withRecords (s.lin.setFiller f y) s.lin ks]
    rfl

end stages

section opened

variable (s : State) (f : Nat) (v : Vessel) (product : Nat) (declared : Cat) (cause : OpenCause)

/-- The coder's port has no place for the notice of an opening that is not out of codes (R104). -/
abbrev State.unsentAt : Prop :=
  ¬ (s.lin.filler f).seq = 100000 ∧
    ((s.port v.coderPort).linkUp = false ∨ 8 ≤ (s.port v.coderPort).inj.length + (s.port v.coderPort).reservations)

/-- Steps 3 and 4: the new batch, its code sent or not. -/
def State.batchFor (unsent : Bool) : Batch :=
  { serial := (s.lin.setFiller f { s.lin.filler f with ring := (s.lin.filler f).keptRing s.now }).issueBatch
    code := if (s.lin.filler f).seq = 100000 then 999999999999999999
      else composeCode s.mgmt.plant v.fillerNumber s.mgmt.codeDay (s.lin.filler f).seq
    filler := f, number := v.fillerNumber, product := product, declared := declared, openTime := s.mgmt.clock,
    cause := cause, indefinite := decide ((s.lin.filler f).seq = 100000), unsent := unsent,
    firstSerial := if (s.lin.filler f).seen = true then some (((s.lin.filler f).lastCarton + 1) % 2 ^ 32) else none,
    list := [], cat := none, uncertain := false, mismatch := false, suspect := false, produced := 0, dispatched := 0,
    closeTime := none, reason := .stillOpen }

/-- The lineage state with a new batch joined. -/
def Lineage.joinBatch (l : Lineage) (f : Nat) (b : Batch) (now : TimeStamp) (timer : Option Nat) : Lineage :=
  { (l.withRecords (l.releaseAll ((l.filler f).evictedKeys now))).setFiller f { l.filler f with
      state := .batchOpen, ring := (l.filler f).keptRing now ++ [b],
      seq := if b.indefinite = true then (l.filler f).seq else (l.filler f).seq + 1, timer := timer } with
    batchNext := nextSerial b.serial }

/-- Steps 1 to 7: the state before the conditions of the opening. -/
def State.openedWith (tag : Nat) (b : Batch) (x : PortState) : State :=
  ({ s with
    lin := s.lin.joinBatch f b s.now (s.timerStart v)
    jrn := s.jrn.writeAll s.now tag ((s.lin.filler f).supersededRecs s.now ++
      [.batchOpened b (((s.lin.filler f).evicted s.now).map Batch.serial)]) } : State).setPort v.coderPort x

theorem State.sendNotice_eq (b : Batch) : s.sendNotice v b =
    if b.indefinite = true then (s, false)
    else if (s.port v.coderPort).linkUp = false ∨
        8 ≤ (s.port v.coderPort).inj.length + (s.port v.coderPort).reservations then (s, true)
    else (s.setPort v.coderPort { s.port v.coderPort with
      inj := (s.port v.coderPort).inj ++ [.notice (s.noticeFor v b)] }, false) := by
  have hroom : ((s.port v.coderPort).linkUp && (s.port v.coderPort).room) = true ↔
      ¬ ((s.port v.coderPort).linkUp = false ∨
        8 ≤ (s.port v.coderPort).inj.length + (s.port v.coderPort).reservations) := by
    rw [Bool.and_eq_true, not_or, Bool.not_eq_false, Nat.not_le]
    exact and_congr_right fun _ => decide_eq_true_iff
  unfold State.sendNotice State.offerNotice
  dsimp only
  by_cases hb : b.indefinite = true
  · rw [if_pos hb, if_pos hb]
  · rw [if_neg hb, if_neg hb]
    by_cases hr : ((s.port v.coderPort).linkUp && (s.port v.coderPort).room) = true
    · rw [if_pos hr, if_neg (hroom.mp hr)]
      rfl
    · rw [if_neg hr, if_pos (not_not.mp (mt hroom.mpr hr))]
      rfl

theorem State.setPort_self (p : Port) : s.setPort p (s.port p) = s := by
  cases p <;> rfl

section ready

variable {f} (hf : f < 8) (tag : Nat) (st : FillerState) (tm : Option Nat)
include hf

theorem State.ringReady_filler : (s.ringReady f tag st tm).lin.filler f = { s.lin.filler f with
    state := st, timer := tm, ring := (s.lin.filler f).keptRing s.now } :=
  Lineage.setFiller_same (l := s.lin) hf _

/-- Steps 3 and 4: the record as it joins. -/
theorem State.newBatch_ringReady :
    (s.ringReady f tag st tm).newBatch f v product declared cause = s.batchFor f v product declared cause false := by
  have hserial : (s.ringReady f tag st tm).lin.issueBatch =
      (s.lin.setFiller f { s.lin.filler f with ring := (s.lin.filler f).keptRing s.now }).issueBatch := by
    refine Lineage.issueBatch_congr (fun g _ => ?_) rfl
    by_cases e : f = g
    · subst e
      rw [s.ringReady_filler hf, Lineage.setFiller_same hf]
    · rw [Lineage.setFiller_ne e]
      exact congrArg Filler.ring (Lineage.setFiller_ne (l := s.lin) e _)
  unfold State.newBatch State.batchFor
  dsimp only
  rw [hserial, s.ringReady_filler hf]
  simp only [beq_eq_decide, decide_eq_true_eq]
  rfl

/-- Steps 5 to 7: the batch joined and its record written. -/
theorem State.appendBatch_ringReady (b : Batch) (x : PortState) :
    ((((s.ringReady f tag st tm).setPort v.coderPort x).appendBatch f v b).write tag
      (.batchOpened b (((s.lin.filler f).evicted s.now).map Batch.serial))) = s.openedWith f v tag b x := by
  have hlin : ({ (s.ringReady f tag st tm).lin with batchNext := nextSerial b.serial } : Lineage).setFiller f
      { (s.ringReady f tag st tm).lin.filler f with
        ring := ((s.ringReady f tag st tm).lin.filler f).ring ++ [b]
        seq := if b.indefinite = true then ((s.ringReady f tag st tm).lin.filler f).seq
          else ((s.ringReady f tag st tm).lin.filler f).seq + 1
        state := .batchOpen, timer := s.timerStart v } = s.lin.joinBatch f b s.now (s.timerStart v) := by
    rw [s.ringReady_filler hf]
    exact congrArg (fun m : Lineage => { m with batchNext := nextSerial b.serial })
      (Lineage.setFiller_setFiller (s.lin.withRecords _) f _ _)
  unfold State.openedWith
  rw [← hlin, Journal.writeAll_append]
  cases v.coderPort <;> rfl

end ready

/-- Opening a batch, in one equation: the new batch joined, its notice offered, then the conditions. -/
theorem State.openBatch_eq (hf : f < 8) (tag : Nat) :
    let b := s.batchFor f v product declared cause (decide (s.unsentAt f v))
    s.openBatch f v product declared cause tag =
      (s.openedWith f v tag b (if (s.lin.filler f).seq = 100000 ∨ s.unsentAt f v then s.port v.coderPort
        else { s.port v.coderPort with
          inj := (s.port v.coderPort).inj ++ [.notice (s.noticeFor v b)] })).openingConditions f v b tag := by
  intro b
  obtain ⟨st, tm, hce⟩ := s.closeEvict_eq f tag hf
  let u := s.ringReady f tag st tm
  have hport : u.port v.coderPort = s.port v.coderPort := by cases v.coderPort <;> rfl
  let b0 := s.batchFor f v product declared cause false
  have hstages : s.openBatch f v product declared cause tag =
      ((((u.sendNotice v b0).1.appendBatch f v { b0 with unsent := (u.sendNotice v b0).2 }).write tag
        (.batchOpened { b0 with unsent := (u.sendNotice v b0).2 }
          (((s.lin.filler f).evicted s.now).map Batch.serial))).openingConditions f v
            { b0 with unsent := (u.sendNotice v b0).2 } tag) := by
    unfold State.openBatch
    dsimp only
    rw [hce]
    dsimp only
    rw [s.newBatch_ringReady v product declared cause hf tag st tm]
  have hsend := u.sendNotice_eq v b0
  rw [hport] at hsend
  have hind : b0.indefinite = true ↔ (s.lin.filler f).seq = 100000 := decide_eq_true_iff
  have hself : u.setPort v.coderPort (s.port v.coderPort) = u := hport ▸ u.setPort_self _
  have hsame : ∀ b, (u.appendBatch f v b).write tag (.batchOpened b (((s.lin.filler f).evicted s.now).map Batch.serial)) =
      s.openedWith f v tag b (s.port v.coderPort) := fun b => by
    rw [← s.appendBatch_ringReady v hf tag st tm, hself]
  have hb : ¬ s.unsentAt f v → b = { b0 with unsent := false } := fun hun =>
    congrArg (s.batchFor f v product declared cause) (decide_eq_false hun)
  rw [hstages]
  by_cases hout : (s.lin.filler f).seq = 100000
  · have hun : ¬ s.unsentAt f v := fun h => h.1 hout
    rw [if_pos (hind.mpr hout)] at hsend
    rw [hsend, if_pos (.inl hout), hb hun]
    exact congrArg (fun w : State => w.openingConditions f v { b0 with unsent := false } tag) (hsame _)
  · rw [if_neg (mt hind.mp hout)] at hsend
    by_cases hun : s.unsentAt f v
    · rw [if_pos hun.2] at hsend
      have hb1 : b = { b0 with unsent := true } := congrArg (s.batchFor f v product declared cause) (decide_eq_true hun)
      rw [hsend, if_pos (.inr hun), hb1]
      exact congrArg (fun w : State => w.openingConditions f v { b0 with unsent := true } tag) (hsame _)
    · rw [if_neg fun h => hun ⟨hout, h⟩] at hsend
      rw [hsend, if_neg (not_or.mpr ⟨hout, hun⟩), hb hun]
      exact congrArg (fun w : State => w.openingConditions f v { b0 with unsent := false } tag)
        (s.appendBatch_ringReady v hf tag st tm _ _)

end opened

/-! ## What an opening leaves -/

section joined

variable (s : State) {f : Nat} (hf : f < 8) (v : Vessel) (product : Nat) (declared : Cat) (cause : OpenCause) (u : Bool)

theorem modifyLast_serials (g : Batch → Batch) (hg : ∀ b, (g b).serial = b.serial) (bs : List Batch) :
    (modifyLast g bs).map Batch.serial = bs.map Batch.serial := by
  rcases List.eq_nil_or_concat bs with rfl | ⟨older, b, rfl⟩
  · rfl
  · rw [List.concat_eq_append, modifyLast_concat, List.map_append, List.map_append, List.map_singleton, hg]
    rfl

theorem Filler.closedRing_serials (x : Filler) (now : TimeStamp) :
    (x.closedRing now).map Batch.serial = x.ring.map Batch.serial := by
  unfold Filler.closedRing
  split
  · exact modifyLast_serials (fun b => b.closedAs now .superseded) (fun _ => rfl) _
  · rfl

/-- Every serial of the ring kept stood in the ring before. -/
theorem Filler.keptRing_serials (x : Filler) (now : TimeStamp) :
    ((x.keptRing now).map Batch.serial).Sublist (x.ring.map Batch.serial) := by
  rw [← x.closedRing_serials now]
  unfold Filler.keptRing
  split
  · exact List.Sublist.refl _
  · exact (List.drop_sublist 1 _).map _

theorem Filler.keptRing_le (x : Filler) (now : TimeStamp) : (x.keptRing now).length ≤ x.ring.length := by
  have := (x.keptRing_serials now).length_le
  rwa [List.length_map, List.length_map] at this

include hf

theorem State.batchFor_serial (h : ∀ g, g < 8 → ∀ b ∈ (s.lin.filler g).ring, b.serial ≠ s.lin.batchNext) :
    (s.batchFor f v product declared cause u).serial = s.lin.batchNext := by
  refine Lineage.issueBatch_free _ fun g hg b hb => ?_
  by_cases e : f = g
  · subst e
    rw [Lineage.setFiller_same hf] at hb
    obtain ⟨y, hy, hs⟩ := List.mem_map.mp (((s.lin.filler f).keptRing_serials s.now).subset (List.mem_map_of_mem hb))
    exact hs ▸ h f hf y hy
  · rw [Lineage.setFiller_ne e] at hb
    exact h g hg b hb

theorem State.batchFor_firstFree (h : ∀ g, g < 8 → (s.lin.filler g).ring.length ≤ 8) (h1 : 1 ≤ s.lin.batchNext)
    (h2 : s.lin.batchNext ≤ 268435455) :
    FirstFreeSerial (fun n => ∃ g, g < 8 ∧ ∃ y ∈
      (if g = f then (s.lin.filler f).keptRing s.now else (s.lin.filler g).ring), y.serial = n)
      s.lin.batchNext (s.batchFor f v product declared cause u).serial := by
  have hring : ∀ g, ((s.lin.setFiller f { s.lin.filler f with ring := (s.lin.filler f).keptRing s.now }).filler g).ring =
      if g = f then (s.lin.filler f).keptRing s.now else (s.lin.filler g).ring := fun g => by
    by_cases e : g = f
    · rw [if_pos e, e, Lineage.setFiller_same hf]
    · rw [if_neg e, Lineage.setFiller_ne (Ne.symm e)]
  have hfree := Lineage.issueBatch_firstFree
    (s.lin.setFiller f { s.lin.filler f with ring := (s.lin.filler f).keptRing s.now }) (fun g hg => by
      rw [hring]
      split
      · exact ((s.lin.filler f).keptRing_le s.now).trans (h f hf)
      · exact h g hg) h1 h2
  simp only [hring] at hfree
  exact hfree

omit hf in
theorem State.batchFor_code (hout : ¬ (s.lin.filler f).seq = 100000) :
    (s.batchFor f v product declared cause u).code % 97 = 1 ∧
      (s.batchFor f v product declared cause u).code / 100 = s.mgmt.plant * 10 ^ 12 + v.fillerNumber * 10 ^ 10 +
        (if s.mgmt.clockSet = true then s.mgmt.clock.day else 0) * 10 ^ 5 + (s.lin.filler f).seq := by
  have hc : (s.batchFor f v product declared cause u).code =
      composeCode s.mgmt.plant v.fillerNumber s.mgmt.codeDay (s.lin.filler f).seq := if_neg hout
  rw [hc]
  exact composeCode_digits ..

theorem Lineage.joinBatch_filler (l : Lineage) (b : Batch) (now : TimeStamp) (timer : Option Nat) :
    (l.joinBatch f b now timer).filler f = { l.filler f with
      state := .batchOpen, ring := (l.filler f).keptRing now ++ [b],
      seq := if b.indefinite = true then (l.filler f).seq else (l.filler f).seq + 1, timer := timer } :=
  Lineage.setFiller_same (l := l) hf _

omit hf in
theorem Lineage.joinBatch_filler_ne (l : Lineage) (b : Batch) (now : TimeStamp) (timer : Option Nat) {g : Nat} (h : g ≠ f) :
    (l.joinBatch f b now timer).filler g = l.filler g :=
  Lineage.setFiller_ne (l := l) (Ne.symm h) _

end joined

/-- The conditions of an opening, in their order (R102, step 8). -/
def openingConds (f : Nat) (v : Vessel) (b : Batch) : List CondVals :=
  (if b.indefinite = true then [.codeExhausted f b.serial] else []) ++
    (if b.unsent = true then [.codeUnsent f b.serial v.coderPort] else []) ++
    (if b.cause = .auto then [.noBatch f b.serial] else [])

/-- Conditions raised in turn. -/
def State.raises (s : State) (tag : Nat) (filler : Option Nat) (cs : List CondVals) : State :=
  cs.foldl (fun u c => u.raise tag filler c) s

theorem State.openingConditions_eq (s : State) (f : Nat) (v : Vessel) (b : Batch) (tag : Nat) :
    s.openingConditions f v b tag = s.raises tag (some f) (openingConds f v b) := by
  unfold State.openingConditions openingConds State.raises
  rw [List.foldl_append, List.foldl_append]
  by_cases h1 : b.indefinite = true <;> by_cases h2 : b.unsent = true <;> by_cases h3 : b.cause = .auto <;>
    simp [h1, h2, h3]

section raises

variable (tag : Nat) (filler : Option Nat) (cs : List CondVals) (s : State)

theorem State.raises_lin : (s.raises tag filler cs).lin = s.lin := by
  induction cs generalizing s with
  | nil => rfl
  | cons c cs ih => exact (ih _).trans (State.raise_lin ..)

theorem State.raises_port (q : Port) : (s.raises tag filler cs).port q = s.port q := by
  induction cs generalizing s with
  | nil => rfl
  | cons c cs ih => exact (ih _).trans (State.raise_port ..)

end raises

theorem State.timerStart_eq (s : State) (v : Vessel) : s.timerStart v =
    if v.idleTimeout = 0 then none else some (s.mgmt.elapsed + v.idleTimeout * 100) := by
  unfold State.timerStart
  simp only [beq_iff_eq]

/-- One condition raised behind an opening. -/
theorem State.openedWith_raise (s : State) (f : Nat) (v : Vessel) (tag : Nat) (b : Batch) (x : PortState) (c : CondVals) :
    ((s.openedWith f v tag b x).raise tag (some f) c).hold = s.raisedHold (some f) c ∧
      ((s.openedWith f v tag b x).raise tag (some f) c).jrn = s.jrn.writeAll s.now tag
        (((s.lin.filler f).supersededRecs s.now ++ [.batchOpened b (((s.lin.filler f).evicted s.now).map Batch.serial)]) ++
          s.raisedRecs (some f) c) := by
  have hr := (SameVoice.setPort (({ s with
    lin := s.lin.joinBatch f b s.now (s.timerStart v)
    jrn := s.jrn.writeAll s.now tag ((s.lin.filler f).supersededRecs s.now ++
      [.batchOpened b (((s.lin.filler f).evicted s.now).map Batch.serial)]) } : State)) v.coderPort x).raise tag (some f) c
  rw [s.raise_after (l := s.lin.joinBatch f b s.now (s.timerStart v)) tag (some f) c (fun _ => rfl)] at hr
  exact ⟨hr.hold, hr.jrn⟩

/-- Settles O55: the checks, then the one equation of an opening, read part by part. -/
theorem batchOpenStartsANewBatch : Obligations.BatchOpenStartsANewBatch := by
  intro s e f product byte ht hv x refused
  have hop : ∀ {u}, s.opBatchOpen e.tag e.command f product byte = u → e.operation s = { st := u } := fun hu => by
    simp only [TakenEntry.operation, hv, hu]
  have hrow : e.val.row = .batchOpenEntry := by rw [hv]; rfl
  have hrefused : ∀ {r}, s.opBatchOpen e.tag e.command f product byte = s.write e.tag (.batchOpenRefused r f product byte) →
      refused r := fun hu => exec_row_of (o := { st := s.write e.tag _ }) ht hrow (hop hu) rfl
  refine ⟨fun h => hrefused ?_, fun v declared hfv hcat hf => ⟨fun hc => hrefused ?_, fun hc _ => ?_⟩⟩
  · unfold State.opBatchOpen
    rcases h with h | h
    · rw [h]
    · cases s.lin.fillerVessel f <;> rw [h]
  · simp only [State.opBatchOpen, hfv, hcat]
    exact if_pos (beq_iff_eq.mpr hc)
  · intro w port closed kept out unsent
    let cause : OpenCause := if e.command = true then .command else .telegram
    let b := s.batchFor f w product declared cause (decide (s.unsentAt f w))
    let y : PortState := if out ∨ unsent then port else { port with inj := port.inj ++ [.notice (s.noticeFor w b)] }
    let l := s.lin.joinBatch f b s.now (s.timerStart w)
    let ps : List Payload := x.supersededRecs s.now ++ [.batchOpened b ((x.evicted s.now).map Batch.serial)]
    have hu : s.opBatchOpen e.tag e.command f product byte =
        (s.openedWith f w e.tag b y).raises e.tag (some f) (openingConds f w b) := by
      simp only [State.opBatchOpen, hfv, hcat]
      refine (if_neg (by simpa using hc)).trans ?_
      rw [State.openBatch_eq s f _ _ _ _ hf, State.openingConditions_eq]
    have hcause : ¬ cause = .auto := by
      change ¬ (if e.command = true then OpenCause.command else .telegram) = .auto
      split <;> nofun
    have hconds : openingConds f w b = (if out then [.codeExhausted f b.serial] else []) ++
        (if unsent then [.codeUnsent f b.serial w.coderPort] else []) := by
      have h1 : b.indefinite = true ↔ out := decide_eq_true_iff
      have h2 : b.unsent = true ↔ unsent := decide_eq_true_iff
      rw [openingConds, if_neg (show ¬ b.cause = .auto from hcause), List.append_nil]
      exact congrArg₂ _ (if_congr h1 rfl rfl) (if_congr h2 rfl rfl)
    obtain ⟨h, recs, hhold, hjrn, hcase⟩ : ∃ h recs,
        ((s.openedWith f w e.tag b y).raises e.tag (some f) (openingConds f w b)).hold = h ∧
        ((s.openedWith f w e.tag b y).raises e.tag (some f) (openingConds f w b)).jrn =
          s.jrn.writeAll s.now e.tag (ps ++ recs) ∧
        (out → h = s.raisedHold (some f) (.codeExhausted f b.serial) ∧
          recs = s.raisedRecs (some f) (.codeExhausted f b.serial)) ∧
        (unsent → h = s.raisedHold (some f) (.codeUnsent f b.serial w.coderPort) ∧
          recs = s.raisedRecs (some f) (.codeUnsent f b.serial w.coderPort)) ∧
        (¬ out → ¬ unsent → h = s.hold ∧ recs = []) := by
      have hraise := s.openedWith_raise f w e.tag b y
      rw [hconds]
      by_cases ho : out
      · have hn : ¬ unsent := fun h => h.1 ho
        rw [if_pos ho, if_neg hn]
        exact ⟨_, _, (hraise _).1, (hraise _).2, fun _ => ⟨rfl, rfl⟩, fun h => absurd h hn, fun h => absurd ho h⟩
      · rw [if_neg ho]
        by_cases hn : unsent
        · rw [if_pos hn]
          exact ⟨_, _, (hraise _).1, (hraise _).2, fun h => absurd h ho, fun _ => ⟨rfl, rfl⟩, fun _ h => absurd hn h⟩
        · rw [if_neg hn]
          refine ⟨s.hold, [], ?_, ?_, fun h => absurd h ho, fun h => absurd h hn, fun _ _ => ⟨rfl, rfl⟩⟩
          · exact State.setPort_hold _ _ _
          · refine (State.setPort_jrn _ _ _).trans ?_
            rw [List.append_nil]
    obtain ⟨hexh, huns, hsent⟩ := hcase
    obtain ⟨t, hx, hres, hport⟩ := exec_row_ports ht hrow (hop hu) hjrn
    have hl : ((s.openedWith f w e.tag b y).raises e.tag (some f) (openingConds f w b)).lin = l :=
      (State.raises_lin ..).trans (State.setPort_lin _ _ _)
    have hports : ∀ q, t.port q = (s.openedWith f w e.tag b y).port q := fun q =>
      (hport q).trans (State.raises_port ..)
    refine ⟨t, l, h, b, recs, hx, ?_, rfl, s.batchFor_serial hf _ _ _ _ _, s.batchFor_firstFree hf _ _ _ _ _,
      fun ho => if_pos ho, fun ho => s.batchFor_code w product declared cause _ ho, ?_, fun g hg =>
      Lineage.joinBatch_filler_ne _ _ _ _ hg, rfl, rfl, hexh, huns, hsent, ?_, ?_⟩
    · have := hres
      have hev : (x.evicted s.now).map Batch.serial = if x.ring.length < 8 then none else closed.head?.map Batch.serial := by
        unfold Filler.evicted
        split <;> rfl
      rw [hl, hhold, List.append_assoc, hev] at this
      exact this
    · have hseq : (if b.indefinite = true then x.seq else x.seq + 1) = if out then x.seq else x.seq + 1 :=
        if_congr decide_eq_true_iff rfl rfl
      rw [← hseq, ← s.timerStart_eq]
      exact Lineage.joinBatch_filler hf _ _ _ _
    · exact (hports _).trans (State.port_setPort_same _ _ _)
    · refine (hports _).trans ((State.port_setPort_other ..).trans ?_)
      cases w.coderPort <;> rfl

end Sys2Proof.Machine

/-! The delivery of a transfer (R33 to R42): from the draw to the destination's new content, stage by stage. -/

namespace Sys2Proof.Machine

open Sys2Proof

/-! ## Contents and the rest of the lineage state -/

theorem vset_comm {α : Type} {n : Nat} (xs : Vector α n) {i j : Nat} (h : i ≠ j) (x y : α) :
    vset (vset xs i x) j y = vset (vset xs j y) i x :=
  vec_ext _ x _ fun k _ => by
    simp only [vget_vset]
    by_cases hi : i = k
    · have hj : ¬ j = k := fun e => h (hi.trans e.symm)
      simp [hi, hj]
    · simp [hi]

theorem vset_of_le {α : Type} {n : Nat} (xs : Vector α n) {i : Nat} (h : n ≤ i) (x : α) : vset xs i x = xs :=
  vec_ext _ x _ fun k _ => by
    rw [vget_vset, if_neg fun e => Nat.not_lt.mpr h e.2]

section commute

variable (l : Lineage) {dst : Nat} (c : Content)

theorem Lineage.putContent_withRecords (m : Lineage) :
    (l.putContent dst c).withRecords m = (l.withRecords m).putContent dst c := by
  unfold Lineage.putContent
  dsimp only
  rw [Lineage.withRecords_vessel]
  split <;> rfl

theorem Lineage.putContent_setVessel {src : Nat} (h : src ≠ dst) (y : Vessel) :
    (l.putContent dst c).setVessel src y = (l.setVessel src y).putContent dst c := by
  unfold Lineage.putContent
  dsimp only
  rw [Lineage.setVessel_ne h]
  split
  · rfl
  · exact congrArg (fun xs : Vector Vessel 64 => { l with vessels := xs }) (vset_comm l.vessels h.symm _ _)

/-- The vessels with a content put: a STORE holds it itself. -/
theorem Lineage.vessel_putContent (u : Nat) (hlt : dst < 64) : (l.putContent dst c).vessel u =
    if u = dst ∧ (l.vessel dst).kind ≠ .filler then c.intoVessel (l.vessel dst) else l.vessel u := by
  unfold Lineage.putContent
  dsimp only
  by_cases hk : (l.vessel dst).kind = .filler
  · rw [if_pos hk, if_neg fun h => h.2 hk]
    rfl
  · rw [if_neg hk]
    by_cases hu : u = dst
    · rw [if_pos ⟨hu, hk⟩, hu, Lineage.setVessel_same hlt]
    · rw [if_neg fun h => hu h.1, Lineage.setVessel_ne (Ne.symm hu)]

/-- The kind and the indices of every vessel stay. -/
theorem Lineage.shape_putContent (u : Nat) : ((l.putContent dst c).vessel u).kind = (l.vessel u).kind ∧
    ((l.putContent dst c).vessel u).fillerIndex = (l.vessel u).fillerIndex := by
  by_cases hlt : dst < 64
  · rw [l.vessel_putContent c u hlt]
    split
    · rename_i h
      rw [h.1]
      exact ⟨rfl, rfl⟩
    · exact ⟨rfl, rfl⟩
  · have hx : l.vessel dst = {} := by simp [Lineage.vessel, vget, hlt]
    have : (l.putContent dst c).vessel u = l.vessel u := by
      unfold Lineage.putContent
      dsimp only
      rw [if_neg (by rw [hx]; nofun), Lineage.setVessel, vset_of_le _ (Nat.le_of_not_lt hlt)]
    rw [this]
    exact ⟨rfl, rfl⟩

theorem Lineage.fillerVessel_congr {l k : Lineage}
    (h : ∀ u, (k.vessel u).kind = (l.vessel u).kind ∧ (k.vessel u).fillerIndex = (l.vessel u).fillerIndex) (f : Nat) :
    k.fillerVessel f = l.fillerVessel f := by
  unfold Lineage.fillerVessel
  refine List.find?_congr fun u _ => ?_
  rw [(h u).1, (h u).2]

theorem Lineage.fillerVessel_putContent (f : Nat) : (l.putContent dst c).fillerVessel f = l.fillerVessel f :=
  Lineage.fillerVessel_congr (l.shape_putContent c) f

theorem Lineage.namedFiller_congr {l k : Lineage} {v : Nat} (h : (k.vessel v).kind = (l.vessel v).kind)
    (hf : (k.vessel v).fillerIndex = (l.vessel v).fillerIndex) : k.namedFiller v = l.namedFiller v := by
  unfold Lineage.namedFiller
  rw [h, hf]

end commute

theorem Lineage.catTab_putContent (l : Lineage) (dst : Nat) (c : Content) : (l.putContent dst c).catTab = l.catTab := by
  unfold Lineage.putContent
  dsimp only
  split <;> rfl

theorem Lineage.merge_congr {l k : Lineage} (h : k.catTab = l.catTab) : k.merge = l.merge := by
  funext a b
  cases a <;> cases b <;> simp only [Lineage.merge, h]

/-- The blends of one lineage state in another. -/
def Lineage.withBlends (l m : Lineage) : Lineage := { l with blends := m.blends, blendNext := m.blendNext }

theorem Lineage.putContent_withBlends (l m : Lineage) {dst : Nat} (c : Content) :
    (l.putContent dst c).withBlends m = (l.withBlends m).putContent dst c := by
  unfold Lineage.putContent
  dsimp only
  rw [show (l.withBlends m).vessel dst = l.vessel dst from rfl]
  split <;> rfl

theorem Lineage.setUncertain_withBlends (l m : Lineage) (v : Nat) :
    (l.withBlends m).setUncertain v = (l.setUncertain v).withBlends m := by
  unfold Lineage.setUncertain
  dsimp only
  rw [show (l.withBlends m).vessel v = l.vessel v from rfl]
  cases (l.vessel v).kind <;> rfl

theorem Receives.withBlends {l : Lineage} {dst : Nat} (h : Receives l dst) (m : Lineage) :
    Receives (l.withBlends m) dst := by
  cases h with
  | store hk => exact .store hk
  | filler hk hf h8 hs hr => exact .filler hk hf h8 hs hr

/-! ## The merge acts on the blends, and by truncation on the uncertain flag -/

section merge

variable (u : State) (dst tag : Nat) (pre ps : List Share) (incoming : Cat)

theorem State.formBlend_lin (cat : Cat) (members : List Share) :
    (u.formBlend dst cat members tag).1.lin = u.lin.withBlends (u.formBlend dst cat members tag).1.lin := rfl

theorem State.truncate_lin (xs : List Share) : (u.truncate dst xs tag).1.lin = u.lin.setUncertain dst := by
  unfold State.truncate
  exact State.raise_lin ..

theorem Lineage.withBlends_withBlends (l m k : Lineage) : (l.withBlends m).withBlends k = l.withBlends k := rfl

/-- A lineage state that the merge leaves: its blends are new, and its destination is uncertain if it was cut. -/
def MergedFrom (l : Lineage) (dst : Nat) (m : Merged) : Prop :=
  m.st.lin = (if m.truncated = true then l.setUncertain dst else l).withBlends m.st.lin

theorem Merged.stepB_from {l : Lineage} {m : Merged} (h : m.st.lin = l.withBlends m.st.lin)
    (ht : m.truncated = false) (base xs : List Share) :
    MergedFrom l dst (m.stepB dst base xs ps incoming tag) := by
  unfold MergedFrom Merged.stepB
  split
  · dsimp only
    rw [if_pos rfl, State.truncate_lin, h, Lineage.setUncertain_withBlends]
    rfl
  · dsimp only
    rw [ht, if_neg Bool.false_ne_true, State.formBlend_lin, h]
    rfl

theorem State.mergeList_from : MergedFrom u.lin dst (u.mergeList dst pre ps incoming tag) := by
  unfold State.mergeList
  dsimp only
  split
  · rfl
  · split
    · exact Merged.stepB_from dst tag ps incoming rfl rfl _ _
    · split
      · unfold MergedFrom
        dsimp only
        rw [if_pos rfl, State.truncate_lin]
        rfl
      · split
        · rfl
        · exact Merged.stepB_from dst tag ps incoming (State.formBlend_lin ..) rfl _ _

end merge

/-! ## The stages behind a draw -/

section stages

variable (d : Draw) (src dst tag : Nat)

/-- What the destination holds as the draw leaves it. -/
def Draw.held : Content := d.st.lin.contentOf dst

/-- The portions that fit, and the volume that does not (R34). -/
def Draw.cut : List Share × Nat := ceilingCut (total (d.held dst).list) d.portions

/-- Stages 3 and 4. -/
def Draw.merge : Merged :=
  (d.st.ceilingRaise dst (d.cut dst).2 tag).mergeList dst (d.held dst).list (d.cut dst).1 d.incoming tag

/-- The merged list in its place. -/
def Draw.listed : State := (d.merge dst tag).st.setLin ((d.merge dst tag).st.lin.setList dst (d.merge dst tag).final)

/-- The category merged (R36). -/
def Draw.categorized : State :=
  if (d.cut dst).1.isEmpty then d.listed dst tag else (d.listed dst tag).mergeCat dst d.incoming tag

/-- The uncertain flag of the source passed on (R37). -/
def Draw.doubted : State :=
  if !(d.cut dst).1.isEmpty && (d.categorized dst tag).lin.uncertainOf ((d.categorized dst tag).lin.vessel src)
  then (d.categorized dst tag).setUncertain dst else d.categorized dst tag

/-- OVERFILL at the capacity (R35). -/
def Draw.checked : State := (d.doubted src dst tag).capacityRaise dst (total (d.held dst).list) (d.cut dst).2 tag

/-- The flow into a filler (R107). -/
def Draw.flowed : State :=
  if (d.st.lin.vessel dst).kind == .filler then (d.checked src dst tag).flowInto (d.st.lin.vessel dst)
  else d.checked src dst tag

/-- The reference counts settled (R42). -/
def Draw.settled : Lineage :=
  ((d.flowed src dst tag).lin.addRefs ((d.merge dst tag).gained (d.held dst).list)).releaseAll
    (d.gone ++ (d.merge dst tag).lost (d.held dst).list)

/-- What a draw delivers. -/
def Draw.deliver : TransferOut :=
  { st := (d.flowed src dst tag).setLin (((d.settled src dst tag).rederive src).rederive dst)
    merged := (d.cut dst).1, discarded := (d.cut dst).2, stepA := (d.merge dst tag).blendA.isSome,
    stepB := (d.merge dst tag).blendB.isSome, truncated := (d.merge dst tag).truncated }

theorem State.transfer_eq (s : State) (v : Nat) (doubt : Bool) :
    s.transfer src dst v tag doubt = ((s.prepareDst dst tag doubt).draw src dst v tag).deliver src dst tag := rfl

/-! ## The destination through the stages -/

/-- The destination's uncertain flag behind the merge. -/
def Draw.mergeDoubt : Bool :=
  (d.held dst).uncertain || decide ((d.cut dst).2 ≠ 0) || (d.merge dst tag).truncated

/-- The destination's category behind a transfer (R36). -/
def Draw.newCat : Cat :=
  if (d.cut dst).1 = [] then (d.held dst).cat else d.st.lin.merge (d.held dst).cat d.incoming

/-- The destination's uncertain flag behind a transfer. -/
def Draw.newDoubt : Bool :=
  d.mergeDoubt dst tag || (!(d.cut dst).1.isEmpty && (d.st.lin.vessel src).uncertain)

/-- The lineage state of a draw with the blends that its merge formed. -/
def Draw.base : Lineage := d.st.lin.withBlends (d.merge dst tag).st.lin

/-- The content that a transfer leaves, but for the suspect flag (R33 to R37). -/
def Draw.filled : Content :=
  { list := (d.merge dst tag).final, cat := d.newCat dst, uncertain := d.newDoubt src dst tag,
    suspect := (d.held dst).suspect }

/-- The lineage state of a draw with the filler of its destination restarted (R107). -/
def Draw.running : Lineage :=
  let x := d.st.lin.vessel dst
  if x.kind = .filler then (d.base dst tag).setFiller x.fillerIndex { d.st.lin.filler x.fillerIndex with
    lastFlow := d.st.now, timer := d.st.timerStart x }
  else d.base dst tag

variable {dst} (h : Receives d.st.lin dst)
include h

theorem Draw.base_receives : Receives (d.base dst tag) dst := h.withBlends _

omit h in
theorem Draw.base_content : (d.base dst tag).contentOf dst = d.held dst := rfl

omit h in
theorem Lineage.setUncertain_putContent {l : Lineage} (h : Receives l dst) (c : Content) :
    (l.putContent dst c).setUncertain dst = (l.putContent dst c).putContent dst { c with uncertain := true } := by
  rw [Lineage.setUncertain_eq (h.putContent c), Lineage.contentOf_putContent h]

theorem Draw.ceiling_lin : (d.st.ceilingRaise dst (d.cut dst).2 tag).lin =
    d.st.lin.putContent dst { d.held dst with uncertain := (d.held dst).uncertain || decide ((d.cut dst).2 ≠ 0) } := by
  unfold State.ceilingRaise
  by_cases hd : (d.cut dst).2 = 0
  · rw [if_pos (beq_iff_eq.mpr hd), hd]
    simp only [ne_eq, not_true, decide_false, Bool.or_false]
    exact (Lineage.putContent_self h).symm
  · rw [if_neg (by simpa using hd), State.raise_lin]
    simp only [ne_eq, hd, not_false_eq_true, decide_true, Bool.or_true]
    exact Lineage.setUncertain_eq h

theorem Draw.merge_lin : (d.merge dst tag).st.lin =
    (d.base dst tag).putContent dst { d.held dst with uncertain := d.mergeDoubt dst tag } := by
  have hfrom := (d.st.ceilingRaise dst (d.cut dst).2 tag).mergeList_from dst tag (d.held dst).list (d.cut dst).1 d.incoming
  unfold MergedFrom at hfrom
  rw [d.ceiling_lin tag h] at hfrom
  refine Eq.trans hfrom ?_
  change Lineage.withBlends (if (d.merge dst tag).truncated = true then _ else _) (d.merge dst tag).st.lin = _
  rw [Draw.base, ← Lineage.putContent_withBlends]
  refine congrArg (fun l : Lineage => l.withBlends (d.merge dst tag).st.lin) ?_
  unfold Draw.mergeDoubt
  by_cases ht : (d.merge dst tag).truncated = true
  · rw [if_pos ht, ht, Bool.or_true, Lineage.setUncertain_putContent h]
    exact Lineage.putContent_putContent h (.inl rfl)
  · rw [if_neg ht, Bool.eq_false_iff.mpr ht, Bool.or_false]

theorem Draw.listed_lin : (d.listed dst tag).lin = (d.base dst tag).putContent dst
    { d.held dst with list := (d.merge dst tag).final, uncertain := d.mergeDoubt dst tag } := by
  have hb := d.base_receives tag h
  change (d.merge dst tag).st.lin.setList dst _ = _
  rw [d.merge_lin tag h, Lineage.setList_eq (hb.putContent _), Lineage.contentOf_putContent hb]
  exact Lineage.putContent_putContent hb (.inl rfl)

omit h in
theorem State.mergeCat_lin (s : State) (incoming : Cat) : (s.mergeCat dst incoming tag).lin =
    s.lin.setCat dst (s.lin.merge (s.lin.contentOf dst).cat incoming) := by
  unfold State.mergeCat
  dsimp only
  split
  · split
    · rfl
    · exact State.raise_lin ..
  · rfl

theorem Draw.categorized_lin : (d.categorized dst tag).lin = (d.base dst tag).putContent dst
    { d.held dst with list := (d.merge dst tag).final, uncertain := d.mergeDoubt dst tag, cat := d.newCat dst } := by
  have hb := d.base_receives tag h
  unfold Draw.categorized Draw.newCat
  by_cases hp : (d.cut dst).1 = []
  · rw [if_pos (List.isEmpty_iff.mpr hp), if_pos hp]
    exact d.listed_lin tag h
  · have hcat : (d.listed dst tag).lin.merge = d.st.lin.merge := by
      rw [d.listed_lin tag h]
      exact Lineage.merge_congr (Lineage.catTab_putContent ..)
    rw [if_neg (mt List.isEmpty_iff.mp hp), if_neg hp, State.mergeCat_lin, hcat, d.listed_lin tag h,
      Lineage.contentOf_putContent hb, Lineage.setCat_eq (hb.putContent _), Lineage.contentOf_putContent hb]
    exact Lineage.putContent_putContent hb (.inr rfl)

omit h in
theorem Lineage.uncertainOf_own {l : Lineage} {v : Nat} (hk : (l.vessel v).kind = .store ∨ (l.vessel v).kind = .bay) :
    l.uncertainOf (l.vessel v) = (l.vessel v).uncertain := by
  obtain hk | hk := hk <;> simp only [Lineage.uncertainOf, hk]

variable {src} (hne : src ≠ dst) (hk : (d.st.lin.vessel src).kind = .store ∨ (d.st.lin.vessel src).kind = .bay)
include hne hk

theorem Draw.doubted_lin : (d.doubted src dst tag).lin = (d.base dst tag).putContent dst (d.filled src dst tag) := by
  have hb := d.base_receives tag h
  have hc := d.categorized_lin tag h
  have hsrc : (d.categorized dst tag).lin.vessel src = d.st.lin.vessel src := by
    rw [hc, Lineage.vessel_putContent_ne _ _ hne.symm]
    rfl
  have hunc : (d.categorized dst tag).lin.uncertainOf ((d.categorized dst tag).lin.vessel src) =
      (d.st.lin.vessel src).uncertain := by
    rw [Lineage.uncertainOf_own (by rw [hsrc]; exact hk), hsrc]
  unfold Draw.doubted Draw.filled Draw.newDoubt
  rw [hunc]
  by_cases hp : (!(d.cut dst).1.isEmpty && (d.st.lin.vessel src).uncertain) = true
  · rw [if_pos hp, hp, Bool.or_true]
    change (d.categorized dst tag).lin.setUncertain dst = _
    rw [hc, Lineage.setUncertain_putContent hb]
    exact Lineage.putContent_putContent hb (.inl rfl)
  · rw [if_neg hp, Bool.eq_false_iff.mpr hp, Bool.or_false, hc]

theorem Draw.checked_lin : (d.checked src dst tag).lin = (d.base dst tag).putContent dst (d.filled src dst tag) := by
  rw [← d.doubted_lin tag h hne hk]
  unfold Draw.checked State.capacityRaise
  dsimp only
  split
  · exact State.raise_lin ..
  · rfl

omit h hne hk in
theorem Draw.checked_frame : FullFrame tag d.st (d.checked src dst tag) := by
  have hlisted : FullFrame tag d.st (d.listed dst tag) :=
    (((FullFrame.refl d.st).ceilingRaise _ _).mergeList _ _ _ _).setLin ((LinFrame.refl _).setList _ _)
  have hcat : FullFrame tag d.st (d.categorized dst tag) := FullFrame.ite hlisted (hlisted.mergeCat _ _)
  exact (FullFrame.ite (hcat.setUncertain _) hcat).capacityRaise _ _ _

omit h hne hk in
/-- The restart of a filler and the content of its open batch do not meet. -/
theorem Lineage.putContent_restart {l : Lineage} (h : Receives l dst) (c : Content) (hf : (l.vessel dst).kind = .filler)
    (flow : TimeStamp) (timer : Option Nat) :
    (l.putContent dst c).setFiller (l.vessel dst).fillerIndex
        { (l.putContent dst c).filler (l.vessel dst).fillerIndex with lastFlow := flow, timer := timer } =
      (l.setFiller (l.vessel dst).fillerIndex
        { l.filler (l.vessel dst).fillerIndex with lastFlow := flow, timer := timer }).putContent dst c := by
  cases h with
  | store hs => exact absurd (hs.symm.trans hf) nofun
  | @filler f older o hk hfi h8 hs hr =>
    rw [hfi, Lineage.putContent_filler hk hfi hs hr, Lineage.setFiller_same h8, Lineage.setFiller_setFiller]
    refine Eq.symm ((Lineage.putContent_filler (l := l.setFiller f { l.filler f with lastFlow := flow, timer := timer })
      (older := older) (o := o) hk hfi (by rw [Lineage.setFiller_same h8]; exact hs)
      (by rw [Lineage.setFiller_same h8]; exact hr) c).trans ?_)
    rw [Lineage.setFiller_setFiller, Lineage.setFiller_same h8]
    rfl

omit hne hk in
theorem Draw.running_receives : Receives (d.running dst tag) dst := by
  unfold Draw.running
  dsimp only
  cases h with
  | store hs => exact if_neg (c := (d.st.lin.vessel dst).kind = .filler) (by rw [hs]; nofun) ▸ .store hs
  | @filler f older o hk hf h8 hs hr =>
    rw [if_pos hk, hf]
    exact .filler (older := older) (o := o) hk hf h8 (by rw [Lineage.setFiller_same h8]; exact hs)
      (by rw [Lineage.setFiller_same h8]; exact hr)

theorem Draw.flowed_lin : (d.flowed src dst tag).lin = (d.running dst tag).putContent dst (d.filled src dst tag) := by
  have hc := d.checked_lin tag h hne hk
  have hm : (d.checked src dst tag).mgmt = d.st.mgmt := (d.checked_frame tag).op.mgmt
  unfold Draw.flowed Draw.running
  dsimp only
  by_cases hf : (d.st.lin.vessel dst).kind = .filler
  · rw [if_pos (beq_iff_eq.mpr hf), if_pos hf]
    have hr := Lineage.putContent_restart (d.base_receives tag h) (d.filled src dst tag) hf d.st.now
      (d.st.timerStart (d.st.lin.vessel dst))
    rw [← hc] at hr
    refine Eq.trans ?_ hr
    unfold State.flowInto State.timerStart State.now
    rw [hm]
    rfl
  · rw [if_neg (by simpa using hf), if_neg hf, hc]

/-! ## The counts settled and the flags re-derived -/

omit h hne hk in
theorem Lineage.eq_withRecords {l m : Lineage} (hc : l.colls = m.colls) (hb : l.blends = m.blends) :
    l = l.withRecords m := by
  unfold Lineage.withRecords
  rw [← hc, ← hb]

omit h hne hk in
theorem Lineage.records_putContent (l : Lineage) (dst : Nat) (c : Content) :
    (l.putContent dst c).colls = l.colls ∧ (l.putContent dst c).blends = l.blends := by
  unfold Lineage.putContent
  dsimp only
  split <;> exact ⟨rfl, rfl⟩

omit h hne hk in
theorem Draw.running_others : (d.running dst tag).colls = d.st.lin.colls ∧
    (d.running dst tag).blends = (d.merge dst tag).st.lin.blends := by
  unfold Draw.running
  dsimp only
  split <;> exact ⟨rfl, rfl⟩

/-- The tables of a transfer, its references gained and lost (R42). -/
def Draw.counted (dst tag : Nat) : Lineage :=
  ((d.merge dst tag).st.lin.addRefs ((d.merge dst tag).gained (d.held dst).list)).releaseAll
    (d.gone ++ (d.merge dst tag).lost (d.held dst).list)

theorem Draw.settled_eq : d.settled src dst tag =
    ((d.running dst tag).withRecords (d.counted dst tag)).putContent dst (d.filled src dst tag) := by
  have hf := d.flowed_lin tag h hne hk
  obtain ⟨hrc, hrb⟩ := d.running_others (dst := dst) tag
  obtain ⟨hpc, hpb⟩ := Lineage.records_putContent (d.running dst tag) dst (d.filled src dst tag)
  obtain ⟨hmc, _⟩ := Lineage.records_putContent (d.base dst tag) dst
    { d.held dst with uncertain := d.mergeDoubt dst tag }
  rw [← d.merge_lin tag h] at hmc
  have heq : (d.flowed src dst tag).lin = (d.flowed src dst tag).lin.withRecords (d.merge dst tag).st.lin :=
    Lineage.eq_withRecords (by rw [hf, hpc, hrc, hmc]; rfl) (by rw [hf, hpb, hrb])
  unfold Draw.settled Draw.counted
  rw [heq, Lineage.addRefs_withRecords, Lineage.releaseAll_withRecords, hf, Lineage.putContent_withRecords]

/-- What stands around the destination's content as a transfer leaves it. -/
structure Draw.Around (src dst tag : Nat) (b : Lineage) : Prop where
  receives : Receives b dst
  vessels : ∀ u, u ≠ src → b.vessel u = d.st.lin.vessel u
  source : b.vessel src = { d.st.lin.vessel src with
    suspect := if (d.st.lin.vessel src).kind = .store then b.listSuspect (keysOf (d.st.lin.vessel src).list)
      else b.ringSuspect (b.ring (d.st.lin.vessel src).bayIndex) }
  fillers : b.fillers = (d.running dst tag).fillers
  others : b = { d.st.lin with
    colls := (d.counted dst tag).colls, blends := (d.counted dst tag).blends,
    blendNext := (d.merge dst tag).st.lin.blendNext, vessels := b.vessels, fillers := b.fillers }

omit h hne hk in
/-- The records, one vessel and the fillers of a lineage state changed. -/
theorem Lineage.around_eq {l k m : Lineage}
    (h : k = { l with blends := m.blends, blendNext := m.blendNext, fillers := k.fillers }) (c : Lineage) (v : Nat)
    (y : Vessel) : (k.withRecords c).setVessel v y = { l with
      colls := c.colls, blends := c.blends, blendNext := m.blendNext,
      vessels := ((k.withRecords c).setVessel v y).vessels, fillers := k.fillers } := by
  generalize k.fillers = fs at h
  subst h
  rfl

omit h hne hk in
theorem Lineage.rederive_source {l : Lineage} {v : Nat} (hk : (l.vessel v).kind = .store ∨ (l.vessel v).kind = .bay) :
    l.rederive v = l.setVessel v { l.vessel v with
      suspect := if (l.vessel v).kind = .store then l.listSuspect (keysOf (l.vessel v).list)
        else l.ringSuspect (l.ring (l.vessel v).bayIndex) } := by
  obtain hk | hk := hk
  · rw [l.rederive_store hk, if_pos hk]
  · rw [Lineage.rederive_bay hk, if_neg (by rw [hk]; nofun)]

omit h hne hk in
theorem Draw.running_vessels : (d.running dst tag).vessels = d.st.lin.vessels := by
  unfold Draw.running
  dsimp only
  split <;> rfl

omit h hne hk in
theorem Draw.running_eq : d.running dst tag = { d.st.lin with
    blends := (d.merge dst tag).st.lin.blends, blendNext := (d.merge dst tag).st.lin.blendNext,
    fillers := (d.running dst tag).fillers } := by
  unfold Draw.running
  dsimp only
  split <;> rfl

omit h hne hk in
theorem Receives.withRecords {l : Lineage} (h : Receives l dst) (m : Lineage) : Receives (l.withRecords m) dst := by
  cases h with
  | store hk => exact .store hk
  | filler hk hf h8 hs hr => exact .filler hk hf h8 hs hr

omit h hne hk in
theorem Receives.setVessel {l : Lineage} (h : Receives l dst) (hne : src ≠ dst) (y : Vessel) :
    Receives (l.setVessel src y) dst := by
  have hv := Lineage.setVessel_ne (l := l) hne y
  cases h with
  | store hk => exact .store (by rw [hv]; exact hk)
  | filler hk hf h8 hs hr => exact .filler (by rw [hv]; exact hk) (by rw [hv]; exact hf) h8 hs hr

/-- A transfer leaves the merged content in the destination, with the suspect flag of its list. -/
theorem Draw.deliver_lin : ∃ b, d.Around src dst tag b ∧ (d.deliver src dst tag).st.lin =
    b.putContent dst { d.filled src dst tag with suspect := b.listSuspect (keysOf (d.merge dst tag).final) } := by
  let w := (d.running dst tag).withRecords (d.counted dst tag)
  have hw : Receives w dst := (d.running_receives tag h).withRecords _
  have hset : d.settled src dst tag = w.putContent dst (d.filled src dst tag) := d.settled_eq tag h hne hk
  have hwv : ∀ u, w.vessel u = d.st.lin.vessel u := fun u => by
    change vget (d.running dst tag).vessels u {} = _
    rw [d.running_vessels tag]
    rfl
  have hsrc : (w.putContent dst (d.filled src dst tag)).vessel src = d.st.lin.vessel src := by
    rw [Lineage.vessel_putContent_ne _ _ hne.symm, hwv]
  have hlt : src < 64 := d.st.lin.vessel_lt (by rcases hk with hk | hk <;> rw [hk] <;> decide)
  have hrec := Lineage.records_putContent w dst (d.filled src dst tag)
  have hring : (w.putContent dst (d.filled src dst tag)).ring = w.ring := by
    unfold Lineage.putContent
    dsimp only
    split <;> rfl
  let y : Vessel := { d.st.lin.vessel src with
    suspect := if (d.st.lin.vessel src).kind = .store then w.listSuspect (keysOf (d.st.lin.vessel src).list)
      else w.ringSuspect (w.ring (d.st.lin.vessel src).bayIndex) }
  have hred : (w.putContent dst (d.filled src dst tag)).rederive src =
      (w.setVessel src y).putContent dst (d.filled src dst tag) := by
    rw [Lineage.rederive_source (by rw [hsrc]; exact hk), hsrc, hring, Lineage.listSuspect_congr hrec.1 hrec.2,
      Lineage.ringSuspect_congr hrec.1 hrec.2, Lineage.putContent_setVessel _ _ hne]
  have hb : Receives (w.setVessel src y) dst := hw.setVessel hne y
  refine ⟨w.setVessel src y, ⟨hb, fun u hu => ?_, ?_, rfl, ?_⟩, ?_⟩
  · rw [Lineage.setVessel_ne hu.symm, hwv]
  · exact Lineage.setVessel_same hlt y
  · exact Lineage.around_eq (d.running_eq tag) (d.counted dst tag) src y
  · change ((d.settled src dst tag).rederive src).rederive dst = _
    have hput := Lineage.records_putContent (w.setVessel src y) dst (d.filled src dst tag)
    rw [hset, hred, Lineage.rederive_eq (hb.putContent _), Lineage.contentOf_putContent hb,
      Lineage.listSuspect_congr hput.1 hput.2]
    exact Lineage.putContent_putContent hb (.inl rfl)

end stages

end Sys2Proof.Machine

/-! A transfer as a whole, O46: the destination prepared, the source drawn from, the content delivered. -/

namespace Sys2Proof.Machine

open Sys2Proof

/-! ## The conditions of a transfer -/

/-- CATEGORY_CHANGE where a category changes to another (R36). -/
def State.changeRaise (s : State) (tag : Nat) (named : Option Nat) (dst : Nat) (old new : Cat) : State :=
  match old, new with
  | some i, some j => if i = j then s else s.raise tag named (.categoryChange dst i j)
  | _, _ => s

theorem State.changeRaise_self (s : State) (tag : Nat) (named : Option Nat) (dst : Nat) (c : Cat) :
    s.changeRaise tag named dst c c = s := by
  cases c with
  | none => rfl
  | some i => exact if_pos rfl

theorem SameVoice.changeRaise {s t : State} (h : SameVoice s t) (tag : Nat) (named : Option Nat) (dst : Nat)
    (old new : Cat) : SameVoice (s.changeRaise tag named dst old new) (t.changeRaise tag named dst old new) := by
  unfold State.changeRaise
  cases old with
  | none => exact h
  | some i =>
    cases new with
    | none => exact h
    | some j =>
      dsimp only
      split
      · exact h
      · exact h.raise _ _ _

theorem State.mergeCat_eq (s : State) (dst : Nat) (incoming : Cat) (tag : Nat) : s.mergeCat dst incoming tag =
    (s.setLin (s.lin.setCat dst (s.lin.merge (s.lin.contentOf dst).cat incoming))).changeRaise tag
      (s.lin.namedFiller dst) dst (s.lin.contentOf dst).cat (s.lin.merge (s.lin.contentOf dst).cat incoming) := by
  unfold State.mergeCat State.changeRaise
  dsimp only
  rw [show s.lin.catOf (s.lin.vessel dst) = (s.lin.contentOf dst).cat from rfl]
  generalize (s.lin.contentOf dst).cat = old
  generalize s.lin.merge old incoming = new
  cases old <;> cases new <;> simp only [beq_iff_eq]

section voice

variable (d : Draw) {src dst : Nat} (tag : Nat) (h : Receives d.st.lin dst)

/-- The merge's state, with the conditions of a transfer raised on it. -/
def Draw.spoken (dst tag : Nat) : State :=
  let k := (d.merge dst tag).st.changeRaise tag (d.st.lin.namedFiller dst) dst (d.held dst).cat (d.newCat dst)
  if (d.st.lin.vessel dst).kind = .store ∧ (d.cut dst).2 = 0 ∧ total (d.held dst).list ≤ (d.st.lin.vessel dst).capacity ∧
      (d.st.lin.vessel dst).capacity < total (d.merge dst tag).final
  then k.raise tag none (.overfill dst 0) else k

include h

theorem Draw.listed_voice : SameVoice (d.merge dst tag).st (d.listed dst tag) := by
  refine SameVoice.setLin _ fun f => ?_
  have h1 := d.listed_lin tag h
  have h2 := d.merge_lin tag h
  change (d.listed dst tag).lin.fillerVessel f = _
  rw [h1, h2, Lineage.fillerVessel_putContent, Lineage.fillerVessel_putContent]

theorem Draw.categorized_voice :
    SameVoice ((d.merge dst tag).st.changeRaise tag (d.st.lin.namedFiller dst) dst (d.held dst).cat (d.newCat dst))
      (d.categorized dst tag) := by
  have hl := d.listed_voice tag h
  have hlin := d.listed_lin tag h
  unfold Draw.categorized Draw.newCat
  by_cases hp : (d.cut dst).1 = []
  · rw [if_pos (List.isEmpty_iff.mpr hp), if_pos hp, State.changeRaise_self]
    exact hl
  · have hcont : (d.listed dst tag).lin.contentOf dst =
        { d.held dst with list := (d.merge dst tag).final, uncertain := d.mergeDoubt dst tag } := by
      rw [hlin, Lineage.contentOf_putContent (d.base_receives tag h)]
    have hmerge : (d.listed dst tag).lin.merge = d.st.lin.merge := by
      rw [hlin]
      exact Lineage.merge_congr (Lineage.catTab_putContent ..)
    have hnamed : (d.listed dst tag).lin.namedFiller dst = d.st.lin.namedFiller dst := by
      have := (d.base dst tag).shape_putContent (dst := dst)
        { d.held dst with list := (d.merge dst tag).final, uncertain := d.mergeDoubt dst tag } dst
      rw [hlin]
      exact Lineage.namedFiller_congr this.1 this.2
    rw [if_neg (mt List.isEmpty_iff.mp hp), if_neg hp, State.mergeCat_eq, hcont, hmerge, hnamed]
    refine SameVoice.changeRaise (hl.trans (SameVoice.setLin _ fun f => ?_)) _ _ _ _ _
    rw [hlin, Lineage.setCat_eq ((d.base_receives tag h).putContent _), Lineage.fillerVessel_putContent]

variable (hne : src ≠ dst) (hk : (d.st.lin.vessel src).kind = .store ∨ (d.st.lin.vessel src).kind = .bay)
include hne hk

theorem Draw.doubted_voice :
    SameVoice ((d.merge dst tag).st.changeRaise tag (d.st.lin.namedFiller dst) dst (d.held dst).cat (d.newCat dst))
      (d.doubted src dst tag) := by
  have hc := d.categorized_voice tag h
  have hlin := d.doubted_lin tag h hne hk
  have hcl := d.categorized_lin tag h
  have hv : ∀ f, (d.doubted src dst tag).lin.fillerVessel f = (d.categorized dst tag).lin.fillerVessel f := fun f => by
    rw [hlin, hcl, Lineage.fillerVessel_putContent, Lineage.fillerVessel_putContent]
  refine hc.trans ?_
  revert hv
  unfold Draw.doubted
  split
  · exact fun hv => SameVoice.setLin _ hv
  · exact fun _ => SameVoice.refl _

theorem Draw.checked_voice : SameVoice (d.spoken dst tag) (d.checked src dst tag) := by
  have hv := d.doubted_voice tag h hne hk
  have hlin := d.doubted_lin tag h hne hk
  have hlt := h.lt
  have hshape := (d.base dst tag).vessel_putContent (d.filled src dst tag) dst hlt
  rw [← hlin] at hshape
  have hx : ((d.doubted src dst tag).lin.vessel dst).kind = (d.st.lin.vessel dst).kind ∧
      ((d.doubted src dst tag).lin.vessel dst).capacity = (d.st.lin.vessel dst).capacity := by
    rw [hshape]
    split <;> exact ⟨rfl, rfl⟩
  have hcontent : (d.st.lin.vessel dst).kind = .store →
      (d.doubted src dst tag).lin.content ((d.doubted src dst tag).lin.vessel dst) = total (d.merge dst tag).final := by
    intro hs
    have hks : ((d.doubted src dst tag).lin.vessel dst).kind = .store := hx.1.trans hs
    simp only [Lineage.content, hks]
    rw [hshape, if_pos ⟨rfl, by rw [show ((d.base dst tag).vessel dst).kind = .store from hs]; nofun⟩]
    rfl
  unfold Draw.checked State.capacityRaise Draw.spoken
  dsimp only
  have hiff : (((d.doubted src dst tag).lin.vessel dst).kind == .store && (d.cut dst).2 == 0 &&
      decide (total (d.held dst).list ≤ ((d.doubted src dst tag).lin.vessel dst).capacity) &&
      decide (((d.doubted src dst tag).lin.vessel dst).capacity <
        (d.doubted src dst tag).lin.content ((d.doubted src dst tag).lin.vessel dst))) = true ↔
      (d.st.lin.vessel dst).kind = .store ∧ (d.cut dst).2 = 0 ∧ total (d.held dst).list ≤ (d.st.lin.vessel dst).capacity ∧
        (d.st.lin.vessel dst).capacity < total (d.merge dst tag).final := by
    rw [hx.1, hx.2]
    simp only [Bool.and_eq_true, beq_iff_eq, decide_eq_true_eq, and_assoc]
    exact and_congr_right fun hs => by rw [hcontent hs]
  by_cases hp : (d.st.lin.vessel dst).kind = .store ∧ (d.cut dst).2 = 0 ∧
      total (d.held dst).list ≤ (d.st.lin.vessel dst).capacity ∧
      (d.st.lin.vessel dst).capacity < total (d.merge dst tag).final
  · rw [if_pos hp, if_pos (hiff.mpr hp)]
    exact hv.raise _ _ _
  · rw [if_neg hp, if_neg (mt hiff.mp hp)]
    exact hv

theorem Draw.deliver_voice : (d.deliver src dst tag).st.jrn = (d.spoken dst tag).jrn ∧
    (d.deliver src dst tag).st.hold = (d.spoken dst tag).hold := by
  have hv := d.checked_voice tag h hne hk
  change (d.flowed src dst tag).jrn = _ ∧ (d.flowed src dst tag).hold = _
  unfold Draw.flowed
  split
  · exact ⟨hv.jrn, hv.hold⟩
  · exact ⟨hv.jrn, hv.hold⟩

end voice

/-! ## The destination prepared (R14, R103) -/

theorem Lineage.contentOf_congr {l k : Lineage} {v : Nat} (hv : k.vessel v = l.vessel v) (hf : k.fillers = l.fillers) :
    k.contentOf v = l.contentOf v := by
  have ho : ∀ x, k.openBatchOf x = l.openBatchOf x := fun x => by
    simp only [Lineage.openBatchOf, Lineage.filler, hf]
  simp only [Lineage.contentOf, Lineage.listOf, Lineage.catOf, Lineage.uncertainOf, Lineage.suspectOf, hv, ho]

/-- A destination prepared: nothing else changes, and its list and category are as before, an UNSEEDED STORE's
category 0. -/
structure Prepared (l : Lineage) (dst : Nat) (k : Lineage) : Prop where
  receives : Receives k dst
  list : (k.contentOf dst).list = l.listOf (l.vessel dst)
  cat : (k.contentOf dst).cat =
    if (l.vessel dst).kind = .store ∧ (l.vessel dst).state = .unseeded then some 0 else l.catOf (l.vessel dst)
  vessels : ∀ u, u ≠ dst → k.vessel u = l.vessel u
  store : (l.vessel dst).kind = .store → k.vessel dst = (k.contentOf dst).intoVessel { l.vessel dst with state := .holding }
  filler : (l.vessel dst).kind = .filler → k.vessel dst = l.vessel dst
  rings : k.rings = l.rings

section prepare

variable {s : State} {dst : Nat} (tag : Nat) (doubt : Bool)

theorem State.prepareDst_unseeded (hk : (s.lin.vessel dst).kind = .store) (hs : (s.lin.vessel dst).state = .unseeded) :
    s.prepareDst dst tag doubt = s.setLin (s.lin.setVessel dst { s.lin.vessel dst with
      state := .holding, list := [], cat := some 0, uncertain := true }) := by
  unfold State.prepareDst
  dsimp only
  split
  · exact if_pos (beq_iff_eq.mpr hs)
  · rename_i h
    exact absurd (hk.symm.trans h) nofun
  · rename_i h
    exact absurd (hk.symm.trans h) nofun
  · rename_i h
    exact absurd (hk.symm.trans h) nofun

theorem State.prepareDst_store (hk : (s.lin.vessel dst).kind = .store) (hs : (s.lin.vessel dst).state ≠ .unseeded) :
    s.prepareDst dst tag doubt = s := by
  simp only [State.prepareDst, hk]
  exact if_neg (by simpa using hs)

theorem State.prepareDst_idle (hk : (s.lin.vessel dst).kind = .filler)
    (hs : (s.lin.filler (s.lin.vessel dst).fillerIndex).state = .idle) :
    s.prepareDst dst tag doubt =
      let u := s.openBatch (s.lin.vessel dst).fillerIndex (s.lin.vessel dst) (s.lin.vessel dst).autoProduct none .auto tag
      if doubt = true then u.setUncertain dst else u := by
  simp only [State.prepareDst, hk]
  exact if_pos (beq_iff_eq.mpr hs)

theorem State.prepareDst_filler (hk : (s.lin.vessel dst).kind = .filler)
    (hs : (s.lin.filler (s.lin.vessel dst).fillerIndex).state ≠ .idle) : s.prepareDst dst tag doubt = s := by
  simp only [State.prepareDst, hk]
  exact if_neg (by simpa using hs)

theorem State.openBatch_lin (s : State) {f : Nat} (hf : f < 8) (v : Vessel) (product : Nat) (declared : Cat)
    (cause : OpenCause) : (s.openBatch f v product declared cause tag).lin =
      s.lin.joinBatch f (s.batchFor f v product declared cause (decide (s.unsentAt f v))) s.now (s.timerStart v) := by
  rw [State.openBatch_eq s f _ _ _ _ hf, State.openingConditions_eq, State.raises_lin]
  exact State.setPort_lin _ _ _

/-- A filler with a new batch receives. -/
theorem Lineage.joinBatch_receives {l : Lineage} {f : Nat} (hk : (l.vessel dst).kind = .filler)
    (hf : (l.vessel dst).fillerIndex = f) (h8 : f < 8) (b : Batch) (now : TimeStamp) (timer : Option Nat) :
    Receives (l.joinBatch f b now timer) dst :=
  .filler (older := (l.filler f).keptRing now) (o := b) hk hf h8
    (by rw [Lineage.joinBatch_filler h8]) (by rw [Lineage.joinBatch_filler h8])

theorem Lineage.joinBatch_content {l : Lineage} {f : Nat} (hk : (l.vessel dst).kind = .filler)
    (hf : (l.vessel dst).fillerIndex = f) (h8 : f < 8) (b : Batch) (now : TimeStamp) (timer : Option Nat) :
    (l.joinBatch f b now timer).contentOf dst = ⟨b.list, b.cat, b.uncertain, b.suspect⟩ :=
  Lineage.contentOf_filler (l := l.joinBatch f b now timer) (older := (l.filler f).keptRing now) (o := b) hk hf
    (by rw [Lineage.joinBatch_filler h8]) (by rw [Lineage.joinBatch_filler h8])

/-- What a transfer asks of its destination (R27). -/
def Deliverable (l : Lineage) (dst : Nat) : Prop :=
  (l.vessel dst).kind = .store ∨ ((l.vessel dst).kind = .filler ∧ (l.vessel dst).fillerIndex < 8 ∧
    ((l.filler (l.vessel dst).fillerIndex).state = .idle ∨ (l.openBatchOf (l.vessel dst)).isSome = true))

theorem Receives.of_open {l : Lineage} (hk : (l.vessel dst).kind = .filler) (h8 : (l.vessel dst).fillerIndex < 8)
    (ho : (l.openBatchOf (l.vessel dst)).isSome = true) : Receives l dst := by
  obtain ⟨o, ho⟩ := Option.isSome_iff_exists.mp ho
  obtain ⟨hs, hr⟩ := Filler.openBatch_some ho
  obtain ⟨older, hr⟩ := List.getLast?_eq_some_iff.mp hr
  exact .filler hk rfl h8 hs hr

theorem State.prepareDst_prepared (h : Deliverable s.lin dst) (hc : s.lin.isCleaning dst = false)
    (he : (s.lin.vessel dst).kind = .store → (s.lin.vessel dst).state = .unseeded → (s.lin.vessel dst).list = []) :
    Prepared s.lin dst (s.prepareDst dst tag doubt).lin := by
  rcases h with hk | ⟨hk, h8, hidle | hopen⟩
  · have hlt : dst < 64 := s.lin.vessel_lt (by rw [hk]; decide)
    by_cases hs : (s.lin.vessel dst).state = .unseeded
    · rw [State.prepareDst_unseeded tag doubt hk hs, State.setLin_lin]
      let y : Vessel := { s.lin.vessel dst with state := .holding, list := [], cat := some 0, uncertain := true }
      have hv : (s.lin.setVessel dst y).vessel dst = y := Lineage.setVessel_same hlt y
      have hky : ((s.lin.setVessel dst y).vessel dst).kind = .store := by rw [hv]; exact hk
      have hcont := Lineage.contentOf_store hky
      rw [hv] at hcont
      refine ⟨.store hky, ?_, ?_, fun u hu => Lineage.setVessel_ne (Ne.symm hu) _, fun _ => ?_, fun hf => ?_, rfl⟩
      · rw [hcont]
        simp only [Lineage.listOf, hk]
        exact (he hk hs).symm
      · rw [hcont, if_pos ⟨hk, hs⟩]
      · rw [hcont, hv]
        rfl
      · exact absurd (hk.symm.trans hf) nofun
    · rw [State.prepareDst_store tag doubt hk hs]
      have hcont := Lineage.contentOf_store hk
      have hhold : (s.lin.vessel dst).state = .holding := by
        have hnc : (s.lin.vessel dst).state ≠ .cleaning := fun e => by
          rw [(Lineage.isCleaning_other (by rw [hk]; nofun)).mpr e] at hc
          cases hc
        cases hst : (s.lin.vessel dst).state with
        | unseeded => exact absurd hst hs
        | holding => rfl
        | cleaning => exact absurd hst hnc
      refine ⟨.store hk, rfl, ?_, fun _ _ => rfl, fun _ => ?_, fun hf => absurd (hk.symm.trans hf) nofun, rfl⟩
      · rw [if_neg fun h => hs h.2]
        rfl
      · rw [hcont, ← hhold]
        rfl
  · have hnone : s.lin.openBatchOf (s.lin.vessel dst) = none := Filler.openBatch_of_idle (by rw [hidle]; nofun)
    have hlist : s.lin.listOf (s.lin.vessel dst) = [] := by simp only [Lineage.listOf, hk, hnone]
    have hcat : s.lin.catOf (s.lin.vessel dst) = none := by simp only [Lineage.catOf, hk, hnone]
    rw [State.prepareDst_idle tag doubt hk hidle]
    have hlin := s.openBatch_lin tag h8 (s.lin.vessel dst) (s.lin.vessel dst).autoProduct none .auto
    generalize s.openBatch _ _ _ _ _ _ = u at hlin
    have hb : Receives u.lin dst := by
      rw [hlin]
      exact Lineage.joinBatch_receives hk rfl h8 _ _ _
    have hcont : (u.lin.contentOf dst).list = [] ∧ (u.lin.contentOf dst).cat = none := by
      rw [hlin]
      rewrite [Lineage.joinBatch_content hk rfl h8]
      exact ⟨rfl, rfl⟩
    have hvessels : u.lin.vessel = s.lin.vessel := by
      rw [hlin]
      rfl
    have hrings : u.lin.rings = s.lin.rings := by
      rw [hlin]
      rfl
    have hkind : (u.lin.vessel dst).kind = .filler := by rw [hvessels]; exact hk
    have hput : ∀ c, (u.lin.putContent dst c).vessel = u.lin.vessel ∧ (u.lin.putContent dst c).rings = u.lin.rings :=
      fun c => by
        unfold Lineage.putContent
        dsimp only
        rw [if_pos hkind]
        exact ⟨rfl, rfl⟩
    obtain ⟨c, hc, hcl, hcc⟩ : ∃ c, (if doubt = true then u.setUncertain dst else u).lin = u.lin.putContent dst c ∧
        c.list = [] ∧ c.cat = none := by
      by_cases hd : doubt = true
      · rw [if_pos hd]
        exact ⟨_, Lineage.setUncertain_eq hb, hcont.1, hcont.2⟩
      · rw [if_neg hd]
        exact ⟨_, (Lineage.putContent_self hb).symm, hcont.1, hcont.2⟩
    have hns : ¬ ((s.lin.vessel dst).kind = .store ∧ (s.lin.vessel dst).state = .unseeded) := fun h => by
      rw [hk] at h
      exact absurd h.1 nofun
    dsimp only
    rw [hc]
    refine ⟨hb.putContent c, ?_, ?_, fun v _ => ?_, fun hs => absurd (hk.symm.trans hs) nofun, fun _ => ?_, ?_⟩
    · rw [Lineage.contentOf_putContent hb, hcl, hlist]
    · rw [Lineage.contentOf_putContent hb, hcc, if_neg hns, hcat]
    · rw [(hput c).1, hvessels]
    · rw [(hput c).1, hvessels]
    · rw [(hput c).2, hrings]
  · have hs : (s.lin.filler (s.lin.vessel dst).fillerIndex).state ≠ .idle := fun e => by
      rw [Lineage.openBatchOf, Filler.openBatch_of_idle (by rw [e]; nofun)] at hopen
      cases hopen
    rw [State.prepareDst_filler tag doubt hk hs]
    refine ⟨.of_open hk h8 hopen, rfl, ?_, fun _ _ => rfl, fun hf => absurd (hk.symm.trans hf) nofun, fun _ => rfl, rfl⟩
    rw [if_neg fun h => by rw [hk] at h; exact absurd h.1 nofun]
    rfl

end prepare

end Sys2Proof.Machine

/-! A transfer as a whole, O46: the draw's effect on the lineage state, and the obligation. -/

namespace Sys2Proof.Machine

open Sys2Proof

/-! ## The draw depletes its source and may make its destination uncertain -/

/-- A source's list and the rings replaced. -/
def Lineage.depleted (l : Lineage) (src : Nat) (xs : List Share) (rs : Vector Ring 8) : Lineage :=
  { l.setVessel src { l.vessel src with list := xs } with rings := rs }

section depleted

variable {l : Lineage} {src dst : Nat}

theorem Lineage.setVessel_self (l : Lineage) (v : Nat) : l.setVessel v (l.vessel v) = l := by
  unfold Lineage.setVessel Lineage.vessel
  rw [vset_vget_self]

theorem Lineage.depleted_vessel (hne : src ≠ dst) (xs : List Share) (rs : Vector Ring 8) :
    (l.depleted src xs rs).vessel dst = l.vessel dst :=
  Lineage.setVessel_ne hne _

theorem Lineage.depleted_source (hlt : src < 64) (xs : List Share) (rs : Vector Ring 8) :
    (l.depleted src xs rs).vessel src = { l.vessel src with list := xs } :=
  Lineage.setVessel_same hlt _

theorem Lineage.depleted_self (rs : Vector Ring 8) : l.depleted src (l.vessel src).list rs = { l with rings := rs } := by
  unfold Lineage.depleted
  rw [Lineage.setVessel_self]

theorem Receives.depleted (h : Receives l dst) (hne : src ≠ dst) (xs : List Share) (rs : Vector Ring 8) :
    Receives (l.depleted src xs rs) dst := by
  have hv := Lineage.depleted_vessel (l := l) hne xs rs
  cases h with
  | store hk => exact .store (by rw [hv]; exact hk)
  | filler hk hf h8 hs hr => exact .filler (by rw [hv]; exact hk) (by rw [hv]; exact hf) h8 hs hr

theorem Lineage.depleted_contentOf (hne : src ≠ dst) (xs : List Share) (rs : Vector Ring 8) :
    (l.depleted src xs rs).contentOf dst = l.contentOf dst :=
  Lineage.contentOf_congr (Lineage.depleted_vessel hne xs rs) rfl

end depleted

section draw

variable {s : State} {src dst : Nat} (v tag : Nat)

/-- What a draw leaves: its source depleted, its destination perhaps uncertain. -/
def Drawn (l : Lineage) (src dst : Nat) (k : Lineage) : Prop :=
  ∃ xs rs q, k = (l.depleted src xs rs).putContent dst { l.contentOf dst with uncertain := q }

variable (h : Receives s.lin dst) (hne : src ≠ dst)
include h hne

theorem Drawn.plain (xs : List Share) (rs : Vector Ring 8) : Drawn s.lin src dst (s.lin.depleted src xs rs) := by
  refine ⟨xs, rs, (s.lin.contentOf dst).uncertain, ?_⟩
  have hself := Lineage.putContent_self (h.depleted hne xs rs)
  rw [Lineage.depleted_contentOf hne] at hself
  exact hself.symm

theorem Drawn.doubted (xs : List Share) (rs : Vector Ring 8) :
    Drawn s.lin src dst ((s.lin.depleted src xs rs).setUncertain dst) := by
  refine ⟨xs, rs, true, ?_⟩
  rw [Lineage.setUncertain_eq (h.depleted hne xs rs), Lineage.depleted_contentOf hne]

theorem State.draw_drawn (hk : (s.lin.vessel src).kind = .store ∨ (s.lin.vessel src).kind = .bay) :
    Drawn s.lin src dst (s.draw src dst v tag).st.lin := by
  rcases hk with hk | hk
  · rw [s.draw_store src dst v tag hk]
    by_cases hs : (s.lin.vessel src).state = .unseeded
    · rw [s.drawStore_unseeded src dst v tag hs]
      have hd : (s.drawUnseeded src dst v tag).st.lin = s.lin.setUncertain dst := by
        unfold State.drawUnseeded
        dsimp only
        split
        · exact State.raise_lin ..
        · rfl
      have := Drawn.doubted h hne (s.lin.vessel src).list s.lin.rings
      rw [Lineage.depleted_self] at this
      rw [hd]
      exact this
    · by_cases hv : v ≤ total (s.lin.vessel src).list
      · rw [s.drawStore_plain src dst v tag hs hv]
        exact Drawn.plain h hne _ s.lin.rings
      · rw [s.drawStore_over src dst v tag hs (Nat.lt_of_not_le hv)]
        unfold State.drawOver
        dsimp only
        rw [State.raise_lin]
        exact Drawn.doubted h hne [] s.lin.rings
  · rw [s.draw_bay src dst v tag hk]
    unfold State.drawBay
    dsimp only
    have hp := Drawn.plain h hne (s.lin.vessel src).list
      (vset s.lin.rings (s.lin.vessel src).bayIndex { s.lin.ring (s.lin.vessel src).bayIndex with
        slots := vset (s.lin.ring (s.lin.vessel src).bayIndex).slots (s.lin.ring (s.lin.vessel src).bayIndex).disch
          ((s.lin.ring (s.lin.vessel src).bayIndex).dischSlot.afterDraw v) })
    have hd := Drawn.doubted h hne (s.lin.vessel src).list
      (vset s.lin.rings (s.lin.vessel src).bayIndex { s.lin.ring (s.lin.vessel src).bayIndex with
        slots := vset (s.lin.ring (s.lin.vessel src).bayIndex).slots (s.lin.ring (s.lin.vessel src).bayIndex).disch
          ((s.lin.ring (s.lin.vessel src).bayIndex).dischSlot.afterDraw v) })
    rw [Lineage.depleted_self] at hp hd
    split
    · exact hp
    · rw [State.raise_lin]
      exact hd

end draw

section drawn

variable {l k : Lineage} {src dst : Nat} (d : Drawn l src dst k) (h : Receives l dst) (hne : src ≠ dst)
include d h hne

theorem Drawn.receives : Receives k dst := by
  obtain ⟨xs, rs, q, rfl⟩ := d
  exact (h.depleted hne xs rs).putContent _

theorem Drawn.content : ∃ q, k.contentOf dst = { l.contentOf dst with uncertain := q } := by
  obtain ⟨xs, rs, q, rfl⟩ := d
  exact ⟨q, Lineage.contentOf_putContent (h.depleted hne xs rs) _⟩

omit h hne in
theorem Drawn.vessel (u : Nat) (hs : u ≠ src) (hd : u ≠ dst) : k.vessel u = l.vessel u := by
  obtain ⟨xs, rs, q, rfl⟩ := d
  rw [Lineage.vessel_putContent_ne _ _ hd.symm, Lineage.depleted_vessel hs.symm]

omit h in
theorem Drawn.source (hlt : src < 64) : ∃ xs, k.vessel src = { l.vessel src with list := xs } := by
  obtain ⟨xs, rs, q, rfl⟩ := d
  exact ⟨xs, by rw [Lineage.vessel_putContent_ne _ _ hne.symm, Lineage.depleted_source hlt]⟩

theorem Drawn.store (hk : (l.vessel dst).kind = .store) :
    k.vessel dst = (k.contentOf dst).intoVessel (l.vessel dst) := by
  obtain ⟨xs, rs, q, rfl⟩ := d
  have hv := Lineage.depleted_vessel (l := l) hne xs rs
  rw [Lineage.contentOf_putContent (h.depleted hne xs rs), Lineage.vessel_putContent _ _ _ h.lt, hv,
    if_pos ⟨rfl, by rw [hk]; nofun⟩]

theorem Drawn.filler (hk : (l.vessel dst).kind = .filler) : k.vessel dst = l.vessel dst := by
  obtain ⟨xs, rs, q, rfl⟩ := d
  have hv := Lineage.depleted_vessel (l := l) hne xs rs
  rw [Lineage.vessel_putContent _ _ _ h.lt, hv, if_neg fun e => e.2 hk]

end drawn

/-! ## The obligation -/

theorem ceilingCut_eq (content : Nat) (ps : List Share) : ceilingCut content ps =
    (if content + total ps ≤ 1000000000 then ps else
      (List.zipWith (fun (y : Share) p => Share.mk y.key p) ps
        (apportion (1000000000 - content) (ps.map Share.vol))).filter (fun y => y.vol ≠ 0),
     if content + total ps ≤ 1000000000 then 0 else total ps - (1000000000 - content)) := by
  have hfilter : ∀ l : List Share, l.filter (fun y => decide (y.vol ≠ 0)) = l.filter (fun y => y.vol != 0) := fun l =>
    List.filter_congr fun y _ => by simp [bne, beq_eq_decide]
  by_cases h : content + total ps ≤ 1000000000
  · rw [if_pos h, if_pos h]
    exact ceilingCut_fits content ps h
  · rw [if_neg h, if_neg h, hfilter]
    refine (if_neg (c := content + total ps ≤ Config.contentCeiling) h).trans (Prod.ext ?_ rfl)
    change scaleTo (1000000000 - content) ps = _
    unfold scaleTo
    by_cases hr : 1000000000 - content = 0
    · rw [if_pos (beq_iff_eq.mpr hr), hr, apportion_zero]
      simp [List.zipWith_map_right, List.zipWith_self]
    · rw [if_neg (by simpa using hr)]
      exact portionsOf_map Share.key ps _

section reads

variable {s : State} {src dst v tag : Nat} {doubt : Bool} (hne : src ≠ dst)
  (ha : (s.lin.vessel src).kind = .store ∨ (s.lin.vessel src).kind = .bay)
  (hb : Deliverable s.lin dst) (hc : s.lin.isCleaning dst = false)
  (he : (s.lin.vessel dst).kind = .store → (s.lin.vessel dst).state = .unseeded → (s.lin.vessel dst).list = [])

/-- What the delivery finds: the draw's lineage state against the state before the transfer. -/
structure DrawnFrom (s : State) (src dst : Nat) (d : Draw) : Prop where
  receives : Receives d.st.lin dst
  list : (d.held dst).list = s.lin.listOf (s.lin.vessel dst)
  cat : (d.held dst).cat = if (s.lin.vessel dst).kind = .store ∧ (s.lin.vessel dst).state = .unseeded then some 0
    else s.lin.catOf (s.lin.vessel dst)
  merge : d.st.lin.merge = s.lin.merge
  named : d.st.lin.namedFiller dst = s.lin.namedFiller dst
  source : ∃ xs, d.st.lin.vessel src = { s.lin.vessel src with list := xs }
  others : ∀ u, u ≠ src → u ≠ dst → d.st.lin.vessel u = s.lin.vessel u
  store : (s.lin.vessel dst).kind = .store →
    d.st.lin.vessel dst = (d.held dst).intoVessel { s.lin.vessel dst with state := .holding }
  filler : (s.lin.vessel dst).kind = .filler → d.st.lin.vessel dst = s.lin.vessel dst

include hne ha hb hc he in
theorem State.draw_from : DrawnFrom s src dst ((s.prepareDst dst tag doubt).draw src dst v tag) := by
  have p := s.prepareDst_prepared tag doubt hb hc he
  have hf := ((FullFrame.refl s).prepareDst dst doubt).draw (tag := tag) src dst v
  have hsrc : (s.prepareDst dst tag doubt).lin.vessel src = s.lin.vessel src := p.vessels src hne
  have d := State.draw_drawn v tag p.receives hne (by rw [hsrc]; exact ha)
  generalize s.prepareDst dst tag doubt = u at p hf hsrc d
  generalize u.draw src dst v tag = e at hf d
  obtain ⟨q, hq⟩ := d.content p.receives hne
  have hlt : src < 64 := s.lin.vessel_lt (by rcases ha with h | h <;> rw [h] <;> decide)
  obtain ⟨xs, hxs⟩ := d.source hne hlt
  have hstore : (s.lin.vessel dst).kind = .store →
      e.st.lin.vessel dst = (e.held dst).intoVessel { s.lin.vessel dst with state := .holding } := fun h => by
    have h1 := p.store h
    rw [d.store p.receives hne (by rw [h1]; exact h), h1]
    rfl
  have hfiller : (s.lin.vessel dst).kind = .filler → e.st.lin.vessel dst = s.lin.vessel dst := fun h => by
    have h1 := p.filler h
    rw [d.filler p.receives hne (by rw [h1]; exact h), h1]
  have hshape : (e.st.lin.vessel dst).kind = (s.lin.vessel dst).kind ∧
      (e.st.lin.vessel dst).fillerIndex = (s.lin.vessel dst).fillerIndex := by
    rcases hb with h | h
    · rw [hstore h]
      exact ⟨rfl, rfl⟩
    · rw [hfiller h.1]
      exact ⟨rfl, rfl⟩
  exact {
    receives := d.receives p.receives hne
    list := by
      unfold Draw.held
      rw [hq]
      exact p.list
    cat := by
      unfold Draw.held
      rw [hq]
      exact p.cat
    merge := Lineage.merge_congr hf.op.catTab
    named := Lineage.namedFiller_congr hshape.1 hshape.2
    source := ⟨xs, by rw [hxs, hsrc]⟩
    others := fun x hs hd => by rw [d.vessel x hs hd, p.vessels x hd]
    store := hstore
    filler := hfiller }

end reads

end Sys2Proof.Machine

/-! A transfer as a whole: O46. -/

namespace Sys2Proof.Machine

open Sys2Proof

theorem Merged.gained_eq (m : Merged) (pre : List Share) : m.gained pre =
    (keysOf m.final).filter (fun k => (m.blendA ≠ none ∨ k ∉ keysOf pre) ∧ k ∉ m.blendA.toList ++ m.blendB.toList) ++
      m.members ++ (m.blendA.toList ++ m.blendB.toList) := by
  unfold Merged.gained
  dsimp only
  refine congrArg (fun x => x ++ m.members ++ _) (List.filter_congr fun k _ => ?_)
  rw [Bool.eq_iff_iff]
  cases m.blendA <;> simp

theorem Merged.lost_eq (m : Merged) (pre : List Share) : m.lost pre = match m.blendA with
    | none => (keysOf pre).filter (fun k => k ∉ keysOf m.final)
    | some k => keysOf pre ++ (if k ∈ keysOf m.final then [] else [k]) := by
  unfold Merged.lost
  dsimp only
  cases m.blendA with
  | none =>
    refine List.filter_congr fun k _ => ?_
    rw [Bool.eq_iff_iff]
    simp
  | some k =>
    refine congrArg (keysOf pre ++ ·) ?_
    simp only [List.contains_iff_mem]

theorem Draw.newDoubt_iff (d : Draw) {s : State} {src dst : Nat} (h : DrawnFrom s src dst d) (tag : Nat) :
    d.newDoubt src dst tag = true ↔ d.st.lin.uncertainOf (d.st.lin.vessel dst) = true ∨ (d.cut dst).2 ≠ 0 ∨
      (d.merge dst tag).truncated = true ∨ ((d.cut dst).1 ≠ [] ∧ (s.lin.vessel src).uncertain = true) := by
  obtain ⟨xs, hx⟩ := h.source
  unfold Draw.newDoubt Draw.mergeDoubt
  rw [hx]
  simp only [Bool.or_eq_true, Bool.and_eq_true, Bool.not_eq_true', List.isEmpty_eq_false_iff, decide_eq_true_eq, or_assoc]
  rfl

/-- Settles O46: the draw read off, the delivery's lineage state and journal taken from the stages. -/
theorem transfersMergeWhatIsDrawn : Obligations.TransfersMergeWhatIsDrawn := by
  intro s src dst v tag doubt a b hne hv ha hb hcs hcd he named pre C d Q L ps discarded m old new k1 k2 doubtful
    formed gained lost settled r l
  have hd : DrawnFrom s src dst d := State.draw_from hne ha hb hcd he
  have hr : r = d.deliver src dst tag := s.transfer_eq src dst tag v doubt
  have hport := fun q => State.transfer_port (s := s) (p := q) (tag := tag) src dst v doubt
  have hcut : d.cut dst = (ps, discarded) := by
    unfold Draw.cut
    rw [hd.list]
    exact ceilingCut_eq C d.portions
  have hm : d.merge dst tag = m := by
    unfold Draw.merge State.ceilingRaise
    rw [hcut, hd.list, hd.named]
    exact congrArg (fun u : State => u.mergeList dst pre ps d.incoming tag) (if_congr beq_iff_eq rfl rfl)
  have hnew : d.newCat dst = new := by
    unfold Draw.newCat
    rw [hcut, hd.cat, hd.merge]
  have hdoubt : d.newDoubt src dst tag = true ↔ doubtful := by
    rw [d.newDoubt_iff hd tag, hcut, hm]
  have hspoken : d.spoken dst tag = k2 := by
    have hshape : (d.st.lin.vessel dst).kind = b.kind ∧ (d.st.lin.vessel dst).capacity = b.capacity := by
      rcases hb with h | h
      · rw [hd.store h]
        exact ⟨rfl, rfl⟩
      · rw [hd.filler h.1]
        exact ⟨rfl, rfl⟩
    have hk1 : m.st.changeRaise tag named dst old new = k1 := rfl
    unfold Draw.spoken
    rw [hm, hd.named, hd.cat, hnew, hcut, hd.list, hshape.1, hshape.2]
    dsimp only
    rw [hk1]
  have hcounted : d.counted dst tag = settled := by
    unfold Draw.counted
    rewrite [hm, hd.list, Merged.gained_eq, Merged.lost_eq]
    rfl
  have hsrc : (d.st.lin.vessel src).kind = a.kind ∧ (d.st.lin.vessel src).bayIndex = a.bayIndex := by
    obtain ⟨xs, hx⟩ := hd.source
    rw [hx]
    exact ⟨rfl, rfl⟩
  have hk : (d.st.lin.vessel src).kind = .store ∨ (d.st.lin.vessel src).kind = .bay := by rw [hsrc.1]; exact ha
  obtain ⟨e, around, hlin⟩ := d.deliver_lin tag hd.receives hne hk
  have hvoice := d.deliver_voice tag hd.receives hne hk
  let c : Content := ⟨m.final, new, d.newDoubt src dst tag, e.listSuspect (keysOf m.final)⟩
  have hl : l = e.putContent dst c := by
    change r.st.lin = _
    rw [hr, hlin]
    unfold Draw.filled
    rw [hm, hnew]
  have hcont : l.contentOf dst = c := by rw [hl, Lineage.contentOf_putContent around.receives]
  obtain ⟨hlc, hlb⟩ : l.colls = e.colls ∧ l.blends = e.blends := by
    rw [hl]
    exact Lineage.records_putContent e dst c
  have hsus : l.listSuspect = e.listSuspect := funext (Lineage.listSuspect_congr hlc hlb)
  have hother : l.rings = e.rings ∧ l.blendNext = e.blendNext := by
    rw [hl]
    unfold Lineage.putContent
    dsimp only
    split <;> exact ⟨rfl, rfl⟩
  have hring : e.rings = d.st.lin.rings := by rw [around.others]
  have hdst : e.vessel dst = d.st.lin.vessel dst := around.vessels dst hne.symm
  have hvessel : l.vessel dst = if (e.vessel dst).kind ≠ .filler then c.intoVessel (e.vessel dst) else e.vessel dst := by
    rw [hl, Lineage.vessel_putContent _ _ _ around.receives.lt]
    exact if_congr (and_iff_right rfl) rfl rfl
  refine ⟨?_, ?_, ?_, ?_, ?_, ?_, ?_, ?_, ?_, ?_, ?_, congrArg Content.list hcont, congrArg Content.cat hcont, ?_, ?_,
    fun hs => ?store, fun hs => ?filler, ?source, hother.1.trans hring, fun u hus hud => ?others⟩
  · rw [hr]
    exact congrArg Prod.fst hcut
  · rw [hr]
    exact congrArg Prod.snd hcut
  · rw [hr, ← hm]
    rfl
  · rw [hr, ← hm]
    rfl
  · rw [hr, ← hm]
    rfl
  · exact hport
  · rw [hr, hvoice.1, hspoken]
  · rw [hr, hvoice.2, hspoken]
  · rw [hlc, around.others, ← hcounted]
  · rw [hlb, around.others, ← hcounted]
  · rw [hother.2, around.others, ← hm]
  · rw [show l.uncertainOf (l.vessel dst) = d.newDoubt src dst tag from congrArg Content.uncertain hcont]
    exact hdoubt
  · rw [hsus]
    exact congrArg Content.suspect hcont
  case store =>
    have hcu : decide doubtful = d.newDoubt src dst tag := by
      rw [Bool.eq_iff_iff, decide_eq_true_iff]
      exact hdoubt.symm
    have hb : e.vessel dst = (d.held dst).intoVessel { b with state := .holding } := by rw [hdst, hd.store hs]
    rw [hvessel, hb, if_pos (by rw [show ((d.held dst).intoVessel { b with state := .holding }).kind = _ from hs]; nofun),
      hcu, hsus]
    rfl
  case filler =>
    rw [hvessel, hdst, hd.filler hs]
    exact if_neg (not_not_intro hs)
  case source =>
    rw [hl, Lineage.vessel_putContent_ne _ _ hne.symm, around.source, ← hl, hsus, hsrc.1, hsrc.2,
      Lineage.ringSuspect_congr hlc hlb]
    unfold Lineage.ring
    rw [hother.1]
  case others =>
    rw [hl, Lineage.vessel_putContent_ne _ _ (Ne.symm hud), around.vessels u hus, hd.others u hus hud]

end Sys2Proof.Machine

/-! Flow into a filler, O48: the batch that it opens, the timer that it restarts, the content and the mismatch flag of
the open batch (R102 to R109). -/

namespace Sys2Proof.Machine

open Sys2Proof

/-! ## A filler that is idle opens a batch -/

section idle

variable {x : Filler} (now : TimeStamp) (h : x.state ≠ .batchOpen)
include h

theorem Filler.closedRing_of_closed : x.closedRing now = x.ring := if_neg h

theorem Filler.keptRing_of_closed : x.keptRing now = if x.ring.length < 8 then x.ring else x.ring.drop 1 := by
  rw [Filler.keptRing, Filler.closedRing_of_closed now h]

theorem Filler.supersededRecs_of_closed : x.supersededRecs now = [] := if_neg h

theorem Filler.evicted_of_closed : (x.evicted now).map Batch.serial =
    if x.ring.length < 8 then none else x.ring.head?.map Batch.serial := by
  rw [Filler.evicted, Filler.closedRing_of_closed now h]
  split <;> rfl

theorem Filler.evictedKeys_of_closed : x.evictedKeys now =
    if x.ring.length < 8 then [] else (x.ring.head?.map (fun b => keysOf b.list)).getD [] := by
  rw [Filler.evictedKeys, Filler.closedRing_of_closed now h]

end idle

/-- The flag that a jump or a capped reading set for the filler before, on its new batch (log 35). -/
theorem State.doubt_open (u : State) {dst f : Nat} {older : List Batch} {o : Batch} (doubt : Bool)
    (hk : (u.lin.vessel dst).kind = .filler) (hf : (u.lin.vessel dst).fillerIndex = f)
    (hs : (u.lin.filler f).state = .batchOpen) (hr : (u.lin.filler f).ring = older ++ [o]) (ho : o.uncertain = false) :
    (if doubt = true then u.setUncertain dst else u) =
      u.setLin (u.lin.setFiller f { u.lin.filler f with ring := older ++ [{ o with uncertain := doubt }] }) := by
  cases doubt with
  | true =>
    change u.setLin (u.lin.setUncertain dst) = _
    simp only [Lineage.setUncertain, hk]
    rw [Lineage.modifyOpenOf_concat hf hs hr]
  | false =>
    have hself : u.lin.setFiller f (u.lin.filler f) = u.lin := by
      unfold Lineage.setFiller Lineage.filler
      rw [vset_vget_self]
    have hb : ({ o with uncertain := false } : Batch) = o := by
      rw [← ho]
    rw [hb, ← hr, hself]
    rfl

/-! ## The fillers through a transfer -/

section fillers

variable {l k : Lineage} {src dst f : Nat} {older : List Batch} {o : Batch}

theorem Lineage.putContent_store_fillers (c : Content) (hk : (l.vessel dst).kind = .store) :
    (l.putContent dst c).fillers = l.fillers := by
  rw [Lineage.putContent_store hk]
  rfl

theorem Drawn.store_fillers (d : Drawn l src dst k) (hne : src ≠ dst) (hk : (l.vessel dst).kind = .store) :
    k.fillers = l.fillers := by
  obtain ⟨xs, rs, q, rfl⟩ := d
  exact Lineage.putContent_store_fillers _ (by rw [Lineage.depleted_vessel hne]; exact hk)

theorem Drawn.filler_ring (d : Drawn l src dst k) (hne : src ≠ dst) (hk : (l.vessel dst).kind = .filler)
    (hf : (l.vessel dst).fillerIndex = f) (h8 : f < 8) (hs : (l.filler f).state = .batchOpen)
    (hr : (l.filler f).ring = older ++ [o]) : ∃ q,
      k.filler f = { l.filler f with ring := older ++ [{ o with uncertain := q }] } ∧
      ∀ g, g ≠ f → k.filler g = l.filler g := by
  obtain ⟨xs, rs, q, rfl⟩ := d
  have hv := Lineage.depleted_vessel (l := l) hne xs rs
  refine ⟨q, ?_, fun g hg => ?_⟩
  · rw [Lineage.putContent_filler (l := l.depleted src xs rs) (by rw [hv]; exact hk) (by rw [hv]; exact hf) hs hr,
      Lineage.setFiller_same h8, Lineage.contentOf_filler hk hf hs hr]
    unfold Content.intoBatch
    rw [if_pos rfl]
    rfl
  · rw [Lineage.putContent_filler (l := l.depleted src xs rs) (by rw [hv]; exact hk) (by rw [hv]; exact hf) hs hr,
      Lineage.setFiller_ne (Ne.symm hg)]
    rfl

variable (d : Draw) (tag : Nat) (hne : src ≠ dst)
  (hsrc : (d.st.lin.vessel src).kind = .store ∨ (d.st.lin.vessel src).kind = .bay)
include hne hsrc

theorem Draw.deliver_store_fillers (hk : (d.st.lin.vessel dst).kind = .store) :
    (d.deliver src dst tag).st.lin.fillers = d.st.lin.fillers := by
  obtain ⟨e, around, hlin⟩ := d.deliver_lin tag (.store hk) hne hsrc
  have hrun : (d.running dst tag).fillers = d.st.lin.fillers := by
    unfold Draw.running
    dsimp only
    rw [if_neg (by rw [hk]; nofun)]
    rfl
  rw [hlin, Lineage.putContent_store_fillers _ (by rw [around.vessels dst hne.symm]; exact hk), around.fillers, hrun]

theorem Draw.deliver_suspect (h : Receives d.st.lin dst) :
    let l := (d.deliver src dst tag).st.lin
    (l.contentOf dst).suspect = l.listSuspect (keysOf (l.contentOf dst).list) := by
  intro l
  obtain ⟨e, around, hlin⟩ := d.deliver_lin tag h hne hsrc
  have hl : l = _ := hlin
  obtain ⟨hc, hb⟩ := Lineage.records_putContent e dst
    { d.filled src dst tag with suspect := e.listSuspect (keysOf (d.merge dst tag).final) }
  rw [← hl] at hc hb
  have hcont : l.contentOf dst = _ := (congrArg (fun m : Lineage => m.contentOf dst) hl).trans
    (Lineage.contentOf_putContent around.receives _)
  rw [hcont, Lineage.listSuspect_congr hc hb]
  rfl

theorem Draw.deliver_filler (hk : (d.st.lin.vessel dst).kind = .filler) (hf : (d.st.lin.vessel dst).fillerIndex = f)
    (h8 : f < 8) (hs : (d.st.lin.filler f).state = .batchOpen) (hr : (d.st.lin.filler f).ring = older ++ [o]) :
    let l := (d.deliver src dst tag).st.lin
    l.filler f = { d.st.lin.filler f with
      lastFlow := d.st.now, timer := d.st.timerStart (d.st.lin.vessel dst),
      ring := older ++ [(l.contentOf dst).intoBatch d.st.lin o] } ∧
    ∀ g, g ≠ f → l.filler g = d.st.lin.filler g := by
  intro l
  obtain ⟨e, around, hlin⟩ := d.deliver_lin tag (.filler hk hf h8 hs hr) hne hsrc
  have hrun : ∀ g, e.filler g = if g = f then { d.st.lin.filler f with
      lastFlow := d.st.now, timer := d.st.timerStart (d.st.lin.vessel dst) } else d.st.lin.filler g := fun g => by
    unfold Lineage.filler
    rw [around.fillers]
    change (d.running dst tag).filler g = _
    unfold Draw.running
    dsimp only
    rw [if_pos hk, hf]
    by_cases e : g = f
    · rw [if_pos e, e, Lineage.setFiller_same h8]
      rfl
    · rw [if_neg e, Lineage.setFiller_ne (Ne.symm e)]
      rfl
  have hef := (hrun f).trans (if_pos rfl)
  have hv : e.vessel dst = d.st.lin.vessel dst := around.vessels dst hne.symm
  have hput := Lineage.putContent_filler (l := e) (dst := dst) (f := f) (older := older) (o := o)
    (by rw [hv]; exact hk) (by rw [hv]; exact hf) (by rw [hef]; exact hs) (by rw [hef]; exact hr)
  have hcont : l.contentOf dst =
      { d.filled src dst tag with suspect := e.listSuspect (keysOf (d.merge dst tag).final) } := by
    change (d.deliver src dst tag).st.lin.contentOf dst = _
    rw [hlin, Lineage.contentOf_putContent around.receives]
  have hmis : e.mismatched = d.st.lin.mismatched := by
    have : e.merge = d.st.lin.merge := Lineage.merge_congr (by rw [around.others])
    unfold Lineage.mismatched
    rw [this]
  have hl : l = e.setFiller f { e.filler f with ring := older ++ [(l.contentOf dst).intoBatch d.st.lin o] } := by
    rw [hcont]
    change (d.deliver src dst tag).st.lin = _
    rw [hlin, hput]
    unfold Content.intoBatch
    rw [hmis]
  constructor
  · rw [congrArg (fun m : Lineage => m.filler f) hl]
    dsimp only
    rw [Lineage.setFiller_same h8, hef]
  · intro g hg
    rw [congrArg (fun m : Lineage => m.filler g) hl]
    dsimp only
    rw [Lineage.setFiller_ne (Ne.symm hg), hrun, if_neg hg]

end fillers

/-! ## The obligation -/

section opened

variable (s : State) (dst tag : Nat) (doubt : Bool)

/-- The batch that flow into an idle filler opens (R103). -/
def State.autoBatch (f : Nat) (x : Vessel) : Batch :=
  s.batchFor f x x.autoProduct none .auto (decide (s.unsentAt f x))

/-- The state behind the opening, but for the conditions raised. -/
def State.autoOpened (f : Nat) (x : Vessel) : State :=
  s.openedWith f x tag (s.autoBatch f x)
    (if (s.lin.filler f).seq = 100000 ∨ s.unsentAt f x then s.port x.coderPort
      else { s.port x.coderPort with
        inj := (s.port x.coderPort).inj ++ [.notice (s.noticeFor x (s.autoBatch f x))] })

variable {s dst}

theorem State.prepareDst_opened (hk : (s.lin.vessel dst).kind = .filler) (h8 : (s.lin.vessel dst).fillerIndex < 8)
    (hs : (s.lin.filler (s.lin.vessel dst).fillerIndex).state = .idle) :
    let x := s.lin.vessel dst
    let f := x.fillerIndex
    let k := s.lin.joinBatch f (s.autoBatch f x) s.now (s.timerStart x)
    s.prepareDst dst tag doubt = ((s.autoOpened tag f x).raises tag (some f) (openingConds f x (s.autoBatch f x))).setLin
      (k.setFiller f { k.filler f with
        ring := (s.lin.filler f).keptRing s.now ++ [{ s.autoBatch f x with uncertain := doubt }] }) := by
  intro x f k
  have hlin : ((s.autoOpened tag f x).raises tag (some f) (openingConds f x (s.autoBatch f x))).lin = k := by
    rw [State.raises_lin]
    exact State.setPort_lin _ _ _
  have hjoin := Lineage.joinBatch_filler h8 s.lin (s.autoBatch f x) s.now (s.timerStart x)
  rw [State.prepareDst_idle tag doubt hk hs]
  dsimp only
  rw [State.openBatch_eq s f _ _ _ _ h8, State.openingConditions_eq]
  change (if doubt = true then
    State.setUncertain ((s.autoOpened tag f x).raises tag (some f) (openingConds f x (s.autoBatch f x))) dst
    else (s.autoOpened tag f x).raises tag (some f) (openingConds f x (s.autoBatch f x))) = _
  rw [State.doubt_open _ doubt (f := f) (older := (s.lin.filler f).keptRing s.now) (o := s.autoBatch f x)
    (by rw [hlin]; exact hk) (by rw [hlin]; rfl) (by rw [hlin, hjoin]) (by rw [hlin, hjoin]) rfl, hlin]

end opened

theorem Filler.not_batchOpen_of_idle {x : Filler} (h : x.state = .idle) : x.state ≠ .batchOpen := by
  rw [h]
  nofun

/-- The destination behind its preparation: a STORE, or a filler with an open batch. -/
theorem State.prepareDst_store_kept (s : State) (dst tag : Nat) (doubt : Bool) (hk : (s.lin.vessel dst).kind = .store) :
    ((s.prepareDst dst tag doubt).lin.vessel dst).kind = .store ∧
      (s.prepareDst dst tag doubt).lin.fillers = s.lin.fillers ∧
      ∀ u, u ≠ dst → (s.prepareDst dst tag doubt).lin.vessel u = s.lin.vessel u := by
  have hlt : dst < 64 := s.lin.vessel_lt (by rw [hk]; decide)
  by_cases hs : (s.lin.vessel dst).state = .unseeded
  · rw [State.prepareDst_unseeded tag doubt hk hs, State.setLin_lin, Lineage.setVessel_same hlt]
    exact ⟨hk, rfl, fun u hu => Lineage.setVessel_ne (Ne.symm hu) _⟩
  · rw [State.prepareDst_store tag doubt hk hs]
    exact ⟨hk, rfl, fun _ _ => rfl⟩

theorem State.prepareDst_filler_kept (s : State) (dst tag : Nat) (doubt : Bool)
    (hk : (s.lin.vessel dst).kind = .filler) (h8 : (s.lin.vessel dst).fillerIndex < 8)
    (hc : (s.lin.filler (s.lin.vessel dst).fillerIndex).state ≠ .cleaning) :
    (s.prepareDst dst tag doubt).lin.vessels = s.lin.vessels ∧
      ((s.prepareDst dst tag doubt).lin.filler (s.lin.vessel dst).fillerIndex).state = .batchOpen ∧
      ∀ g, g ≠ (s.lin.vessel dst).fillerIndex → (s.prepareDst dst tag doubt).lin.filler g = s.lin.filler g := by
  by_cases hs : (s.lin.filler (s.lin.vessel dst).fillerIndex).state = .idle
  · rw [State.prepareDst_opened tag doubt hk h8 hs, State.setLin_lin, Lineage.setFiller_same h8]
    refine ⟨rfl, by rw [Lineage.joinBatch_filler h8], fun g hg => ?_⟩
    rw [Lineage.setFiller_ne (Ne.symm hg), Lineage.joinBatch_filler_ne _ _ _ _ hg]
  · rw [State.prepareDst_filler tag doubt hk hs]
    refine ⟨rfl, ?_, fun _ _ => rfl⟩
    cases hst : (s.lin.filler (s.lin.vessel dst).fillerIndex).state with
    | idle => exact absurd hst hs
    | batchOpen => rfl
    | cleaning => exact absurd hst hc

/-- Settles O48: the one equation of an opening read part by part; the fillers followed through the stages of the
transfer. -/
theorem flowOpensBatchesAndRestartsTimers : Obligations.FlowOpensBatchesAndRestartsTimers := by
  intro s dst tag doubt x f timer
  refine ⟨fun hk h8 hs => ?opening, fun src v hne hv hsrc => ?_⟩
  case opening =>
    intro y port out unsent t
    let o := s.autoBatch f x
    have hno : y.state ≠ .batchOpen := Filler.not_batchOpen_of_idle hs
    have hkept : y.keptRing s.now = if y.ring.length < 8 then y.ring else y.ring.drop 1 := y.keptRing_of_closed s.now hno
    have ht := State.prepareDst_opened tag doubt hk h8 hs
    have hports : ∀ q, t.port q = (s.autoOpened tag f x).port q := fun q => by
      change (s.prepareDst dst tag doubt).port q = _
      rw [ht]
      exact State.raises_port ..
    refine ⟨o, rfl, s.batchFor_serial h8 _ _ _ _ _, fun h h1 h2 => ?serial, fun ho => if_pos ho,
      fun ho => s.batchFor_code x _ _ _ _ ho, ?filler, fun g hg => ?others, ?lineage, ?port, ?other, ?voice⟩
    case serial =>
      have hfree := s.batchFor_firstFree h8 x x.autoProduct none .auto (decide (s.unsentAt f x)) h h1 h2
      rw [show (s.lin.filler f).keptRing s.now = _ from hkept] at hfree
      simp only [ne_eq, ite_not]
      exact hfree
    case filler =>
      have hseq : (if o.indefinite = true then y.seq else y.seq + 1) = if out then y.seq else y.seq + 1 :=
        if_congr decide_eq_true_iff rfl rfl
      change (s.prepareDst dst tag doubt).lin.filler f = _
      rw [ht, State.setLin_lin, Lineage.setFiller_same h8, Lineage.joinBatch_filler h8, ← hkept, ← hseq,
        show timer = s.timerStart x from (s.timerStart_eq x).symm]
    case others =>
      change (s.prepareDst dst tag doubt).lin.filler g = _
      rw [ht, State.setLin_lin, Lineage.setFiller_ne (Ne.symm hg), Lineage.joinBatch_filler_ne _ _ _ _ hg]
    case lineage =>
      have hlin : t.lin = _ := congrArg State.lin ht
      rw [← y.evictedKeys_of_closed s.now hno, hlin]
      rfl
    case port => exact (hports _).trans (State.port_setPort_same _ _ _)
    case other =>
      refine (hports _).trans ((State.port_setPort_other ..).trans ?_)
      cases x.coderPort <;> rfl
    case voice =>
      have hauto : SameVoice (s.write tag (.batchOpened o
          (if y.ring.length < 8 then none else y.ring.head?.map Batch.serial))) (s.autoOpened tag f x) := by
        refine SameVoice.trans (t := { s with
          lin := s.lin.joinBatch f o s.now (s.timerStart x)
          jrn := s.jrn.writeAll s.now tag (y.supersededRecs s.now ++
            [.batchOpened o ((y.evicted s.now).map Batch.serial)]) }) ⟨rfl, ?_, rfl, fun _ => rfl⟩ (SameVoice.setPort _ _ _)
        rw [y.supersededRecs_of_closed s.now hno, y.evicted_of_closed s.now hno]
        rfl
      have hconds : openingConds f x o = (if out then [.codeExhausted f o.serial] else []) ++
          (if unsent then [.codeUnsent f o.serial x.coderPort] else []) ++ [.noBatch f o.serial] := by
        have h1 : o.indefinite = true ↔ out := decide_eq_true_iff
        have h2 : o.unsent = true ↔ unsent := decide_eq_true_iff
        rw [openingConds, if_pos (show o.cause = .auto from rfl)]
        exact congrArg (· ++ _) (congrArg₂ _ (if_congr h1 rfl rfl) (if_congr h2 rfl rfl))
      have hv := hauto.raises tag (some f) (openingConds f x o)
      rw [hconds] at hv
      have hjrn : t.jrn = _ := congrArg State.jrn ht
      have hhold : t.hold = _ := congrArg State.hold ht
      rw [hconds] at hjrn hhold
      exact ⟨hjrn.trans hv.jrn, hhold.trans hv.hold⟩
  intro l z
  let u := s.prepareDst dst tag doubt
  let d := u.draw src dst v tag
  have hl : l = (d.deliver src dst tag).st.lin := congrArg (fun r : TransferOut => r.st.lin) (s.transfer_eq src dst tag v doubt)
  have hframe : FullFrame tag s d.st := ((FullFrame.refl s).prepareDst dst doubt).draw src dst v
  have hlt : src < 64 := s.lin.vessel_lt (by rcases hsrc with h | h <;> rw [h] <;> decide)
  refine ⟨fun hk => ?store, fun hk h8 hc older o hr => ?filler⟩
  case store =>
    obtain ⟨hku, hfu, hvu⟩ := s.prepareDst_store_kept dst tag doubt hk
    have hd := State.draw_drawn (s := u) v tag (.store hku) hne (by rw [hvu src hne]; exact hsrc)
    have hkd : (d.st.lin.vessel dst).kind = .store := by
      rw [hd.store (.store hku) hne hku]
      exact hku
    obtain ⟨xs, hxs⟩ := hd.source hne hlt
    have hsd : (d.st.lin.vessel src).kind = .store ∨ (d.st.lin.vessel src).kind = .bay := by
      rw [hxs, hvu src hne]
      exact hsrc
    rw [hl, d.deliver_store_fillers tag hne hsd hkd, hd.store_fillers hne hku, hfu]
  case filler =>
    obtain ⟨hvs, hst, hothers⟩ := s.prepareDst_filler_kept dst tag doubt hk h8 hc
    have hvu : ∀ w, u.lin.vessel w = s.lin.vessel w := fun w =>
      congrArg (fun vs : Vector Vessel 64 => vget vs w {}) hvs
    have hku : (u.lin.vessel dst).kind = .filler := by rw [hvu]; exact hk
    have hfu : (u.lin.vessel dst).fillerIndex = f := by rw [hvu]
    have hru : Receives u.lin dst := .filler hku hfu h8 hst hr
    have hd := State.draw_drawn (s := u) v tag hru hne (by rw [hvu]; exact hsrc)
    obtain ⟨q, hdf, hdg⟩ := hd.filler_ring hne hku hfu h8 hst hr
    obtain ⟨xs, hxs⟩ := hd.source hne hlt
    have hsd : (d.st.lin.vessel src).kind = .store ∨ (d.st.lin.vessel src).kind = .bay := by
      rw [hxs, hvu]
      exact hsrc
    have hxd : d.st.lin.vessel dst = x := (hd.filler hru hne hku).trans (hvu dst)
    have hrd : Receives d.st.lin dst := hd.receives hru hne
    obtain ⟨hfil, hrest⟩ := d.deliver_filler (f := f) (older := older) (o := { o with uncertain := q }) tag hne hsd
      (by rw [hxd]; exact hk) (by rw [hxd]) h8 (by rw [hdf]; exact hst) (by rw [hdf])
    have hsus := d.deliver_suspect tag hne hsd hrd
    dsimp only at hsus
    rw [← hl] at hfil hrest hsus
    clear_value l
    intro now
    have hsusp : l.suspectOf now = l.listSuspect (keysOf (l.listOf now)) := hsus
    have hmis : d.st.lin.mismatched o.declared (l.catOf now) =
        decide (o.declared ≠ none ∧ s.lin.merge o.declared (l.catOf now) ≠ o.declared) := by
      have hm : d.st.lin.merge = s.lin.merge := Lineage.merge_congr hframe.op.catTab
      rw [Lineage.mismatched, hm, Bool.eq_iff_iff]
      cases o.declared <;> simp
    refine ⟨?_, fun g hg => ?_⟩
    · rw [← hsusp, ← hmis]
      rw [hdf, hxd, d.st.timerStart_eq, hframe.op.mgmt] at hfil
      refine Eq.trans hfil ?_
      unfold Content.intoBatch
      rw [show d.st.now = s.mgmt.clock from congrArg Mgmt.clock hframe.op.mgmt]
      rfl
    · rw [hrest g hg, hdg g hg, hothers g hg]

end Sys2Proof.Machine

/-! The volume of a transfer, O47: what a draw yields and takes, what the ceiling and the merge keep. -/

namespace Sys2Proof.Machine

open Sys2Proof

/-! ## The volume of portion lists -/

theorem total_filter_add (p : Share → Bool) (l : List Share) :
    total (l.filter p) + total (l.filter (fun y => !p y)) = total l := by
  induction l with
  | nil => rfl
  | cons y l ih =>
    cases h : p y
    · rw [List.filter_cons_of_neg (by simp [h]), List.filter_cons_of_pos (by simp [h]), total_cons, total_cons]
      omega
    · rw [List.filter_cons_of_pos h, List.filter_cons_of_neg (by simp [h]), total_cons, total_cons]
      omega

theorem total_unknownLast (l : List Share) (extra : Nat) : total (unknownLast l extra) = total l + extra := by
  have hsplit := total_filter_add (fun y => y.key != .unknown) l
  have hneg : l.filter (fun y => !(y.key != .unknown)) = l.filter (fun y => y.key == .unknown) :=
    List.filter_congr fun y _ => Bool.not_not _
  rw [hneg] at hsplit
  unfold unknownLast volumeOf
  dsimp only
  by_cases hu : total (l.filter (fun y => y.key == .unknown)) + extra = 0
  · rw [if_pos (beq_iff_eq.mpr hu)]
    omega
  · rw [if_neg (by simpa using hu), total_append]
    change _ + (total (l.filter (fun y => y.key == .unknown)) + extra + 0) = _
    omega

theorem total_portionsOf : ∀ (ks : List Key) (vs : List Nat), vs.length = ks.length → total (portionsOf ks vs) = vs.sum
  | [], vs, h => by
    rw [List.eq_nil_of_length_eq_zero h]
    rfl
  | k :: ks, [], h => nomatch h
  | k :: ks, v :: vs, h => by
    have ih := total_portionsOf ks vs (Nat.succ.inj h)
    unfold portionsOf at ih ⊢
    rw [total_filter_ne] at ih ⊢
    rw [List.zip_cons_cons, List.map_cons, total_cons, ih, List.sum_cons]

/-- An apportionment has a portion for each weight, and sums to the volume where the weights are not all 0. -/
theorem apportion_length_sum {v : Nat} {ws : List Nat} (h : ws.sum = 0 → v = 0) :
    (apportion v ws).length = ws.length ∧ (apportion v ws).sum = v := by
  by_cases hpos : 0 < ws.sum
  · exact ⟨apportion_length hpos, apportion_sum hpos⟩
  · rw [h (by omega), apportion_zero]
    simp

/-- Portions taken place by place. -/
theorem sum_zipWith_sub : ∀ (xs ps : List Nat), ps.length = xs.length →
    (∀ k, k < xs.length → ps.getD k 0 ≤ xs.getD k 0) → (List.zipWith (· - ·) xs ps).sum + ps.sum = xs.sum
  | [], ps, h, _ => by
    rw [List.eq_nil_of_length_eq_zero h]
    rfl
  | x :: xs, [], h, _ => nomatch h
  | x :: xs, p :: ps, h, hle => by
    have ih := sum_zipWith_sub xs ps (Nat.succ.inj h) fun k hk => hle (k + 1) (Nat.succ_lt_succ hk)
    have h0 : p ≤ x := hle 0 (Nat.succ_pos _)
    rw [List.zipWith_cons_cons, List.sum_cons, List.sum_cons, List.sum_cons]
    omega

theorem apportion_le {v : Nat} {ws : List Nat} (hpos : 0 < ws.sum) (hv : v ≤ ws.sum) (k : Nat) (hk : k < ws.length) :
    (apportion v ws).getD k 0 ≤ ws.getD k 0 :=
  ((apportionmentIsExact v ws hpos).2.2 k hk).2 hv

/-- What an apportionment leaves of its weights. -/
theorem sum_sub_apportion {v : Nat} {ws : List Nat} (hv : v ≤ ws.sum) :
    (List.zipWith (· - ·) ws (apportion v ws)).sum = ws.sum - v := by
  by_cases hpos : 0 < ws.sum
  · have h := sum_zipWith_sub ws (apportion v ws) (apportion_length hpos) (apportion_le hpos hv)
    rw [apportion_sum hpos] at h
    omega
  · have h0 : v = 0 := by omega
    rw [h0, apportion_zero, List.zipWith_map_right, List.zipWith_self]
    simp

theorem total_lowered (l : List Share) {v : Nat} (hv : v ≤ total l) :
    total (lowered l (apportion v (l.map Share.vol))) = total l - v := by
  have h := sum_sub_apportion (v := v) (ws := l.map Share.vol) hv
  rw [lowered_eq]
  change ((List.zipWith _ l _).map Share.vol).sum = (l.map Share.vol).sum - v
  rw [← h, List.map_zipWith, List.zipWith_map_left]

/-! ## The volume of a draw -/

section draw

variable (s : State) {src dst v tag : Nat}

theorem State.drawPlain_total (hv : v ≤ total (s.lin.vessel src).list) :
    total (s.drawPlain src v).portions = v := by
  have h := apportion_length_sum (v := v) (ws := (s.lin.vessel src).list.map Share.vol)
    (fun h0 => Nat.le_zero.mp (hv.trans_eq h0))
  unfold State.drawPlain
  dsimp only
  rw [total_unknownLast, total_portionsOf _ _ (by rw [h.1, List.length_map, keysOf, List.length_map]), h.2, Nat.add_zero]

theorem Slot.normalPortions_spec (c : Slot) (v : Nat) :
    (c.normalPortions v).length = c.shares.length ∧ (c.normalPortions v).sum = c.normalPart v := by
  have h := apportion_length_sum (v := c.normalPart v) (ws := c.shares.map CompShare.remaining) fun h0 => by
    have : c.normalPart v ≤ c.remainingTotal := Nat.min_le_right ..
    exact Nat.le_zero.mp (this.trans_eq h0)
  rw [List.length_map] at h
  rw [c.normalPortions_eq v]
  exact h

theorem Slot.tolerancePortions_spec (c : Slot) (tolerance v : Nat) :
    (c.tolerancePortions tolerance v).length = c.shares.length ∧
      (c.tolerancePortions tolerance v).sum = c.tolerancePart tolerance v := by
  have h := apportion_length_sum (v := c.tolerancePart tolerance v) (ws := c.shares.map CompShare.manifest) fun h0 => by
    have hm : c.manifestTotal = 0 := h0
    unfold Slot.tolerancePart Slot.room Slot.limit
    rw [hm]
    simp
  rw [List.length_map] at h
  rw [c.tolerancePortions_eq tolerance v]
  exact h

theorem sum_zipWith_add : ∀ xs ys : List Nat, ys.length = xs.length →
    (List.zipWith (· + ·) xs ys).sum = xs.sum + ys.sum
  | [], ys, h => by
    rw [List.eq_nil_of_length_eq_zero h]
    rfl
  | x :: xs, [], h => nomatch h
  | x :: xs, y :: ys, h => by
    have ih := sum_zipWith_add xs ys (Nat.succ.inj h)
    rw [List.zipWith_cons_cons, List.sum_cons, List.sum_cons, List.sum_cons, ih]
    omega

theorem Slot.portions_total (c : Slot) (tolerance v : Nat) : total (c.portions tolerance v) = v := by
  by_cases hc : c.tag = .empty
  · unfold Slot.portions Slot.excessPart
    rw [if_pos (beq_iff_eq.mpr hc), if_pos (beq_iff_eq.mpr hc), total_unknownLast]
    exact Nat.zero_add v
  · obtain ⟨hnl, hns⟩ := c.normalPortions_spec v
    obtain ⟨htl, hts⟩ := c.tolerancePortions_spec tolerance v
    unfold Slot.portions
    dsimp only
    rw [if_neg (by simpa using hc), total_unknownLast, total_portionsOf _ _ (by simp [hnl, htl]), List.zip,
      List.map_zipWith, sum_zipWith_add _ _ (htl.trans hnl.symm), hns, hts, c.excessPart_of_ne tolerance v hc]
    have h1 : c.normalPart v ≤ v := Nat.min_le_left ..
    have h2 : c.tolerancePart tolerance v ≤ v - c.normalPart v := Nat.min_le_left ..
    omega

/-- A draw yields the volume asked for (R28). -/
theorem State.draw_total (hk : (s.lin.vessel src).kind = .store ∨ (s.lin.vessel src).kind = .bay) :
    total (s.draw src dst v tag).portions = v := by
  rcases hk with hk | hk
  · rw [s.draw_store src dst v tag hk]
    by_cases hs : (s.lin.vessel src).state = .unseeded
    · rw [s.drawStore_unseeded src dst v tag hs]
      exact Nat.add_zero v
    · by_cases hv : v ≤ total (s.lin.vessel src).list
      · rw [s.drawStore_plain src dst v tag hs hv]
        exact s.drawPlain_total hv
      · rw [s.drawStore_over src dst v tag hs (Nat.lt_of_not_le hv)]
        unfold State.drawOver
        dsimp only
        rw [total_unknownLast]
        omega
  · rw [s.draw_bay src dst v tag hk]
    exact Slot.portions_total ..

end draw

/-! ## The volume through the ceiling and the merge -/

theorem ceilingCut_total (content : Nat) (ps : List Share) :
    total (ceilingCut content ps).1 + (ceilingCut content ps).2 = total ps ∧
      total (ceilingCut content ps).1 = min (total ps) (1000000000 - content) := by
  by_cases h : content + total ps ≤ 1000000000
  · rw [ceilingCut_fits content ps h]
    exact ⟨rfl, by dsimp only; omega⟩
  · have hcut : ceilingCut content ps =
        (scaleTo (1000000000 - content) ps, total ps - (1000000000 - content)) :=
      if_neg (c := content + total ps ≤ Config.contentCeiling) h
    have hscale : total (scaleTo (1000000000 - content) ps) = 1000000000 - content := by
      unfold scaleTo
      by_cases hr : 1000000000 - content = 0
      · rw [if_pos (beq_iff_eq.mpr hr), hr]
        rfl
      · obtain ⟨hlen, hsum⟩ := apportion_length_sum (v := 1000000000 - content) (ws := ps.map Share.vol) fun h0 => by
          have : total ps = 0 := h0
          omega
        rw [if_neg (by simpa using hr), total_portionsOf _ _ (by rw [hlen, List.length_map, keysOf, List.length_map]), hsum]
    rw [hcut]
    dsimp only
    rw [hscale]
    omega

section merge

theorem total_map_addAt_count (l : List Share) (k : Key) (n : Nat) :
    total (l.map (Share.addAt k n)) = total l + n * (keysOf l).count k := by
  induction l with
  | nil => rfl
  | cons x l ih =>
    rw [List.map_cons, total_cons, total_cons, ih, show keysOf (x :: l) = x.key :: keysOf l from rfl, List.count_cons]
    by_cases e : x.key = k
    · rw [Share.addAt, if_pos e, if_pos (beq_iff_eq.mpr e), Nat.mul_add]
      change x.vol + n + _ = _
      omega
    · rw [Share.addAt_of_ne e, if_neg (by simpa using e), Nat.add_zero]
      omega

variable {l ps : List Share}

theorem keysOf_addPortion (l : List Share) (p : Share) :
    keysOf (addPortion l p) = if p.key ∈ keysOf l then keysOf l else keysOf l ++ [p.key] := by
  by_cases h : p.key ∈ keysOf l
  · rw [addPortion_of_mem h, if_pos h]
    simp only [keysOf, List.map_map]
    exact List.map_congr_left fun y _ => y.addAt_key _ _
  · rw [if_neg h, addPortion, if_neg (mt (hasKey_iff l p.key).mp h)]
    exact List.map_append ..

theorem nodup_addPortion (h : (keysOf l).Nodup) (p : Share) : (keysOf (addPortion l p)).Nodup := by
  rw [keysOf_addPortion]
  split
  · exact h
  · rename_i hp
    exact List.nodup_append.mpr ⟨h, List.nodup_singleton _, fun a ha b hb e => hp (by
      rw [← List.mem_singleton.mp hb, ← e]
      exact ha)⟩

theorem total_addPortion (h : (keysOf l).Nodup) (p : Share) : total (addPortion l p) = total l + p.vol := by
  by_cases hp : p.key ∈ keysOf l
  · rw [addPortion_of_mem hp, total_map_addAt h hp]
  · rw [addPortion, if_neg (mt (hasKey_iff l p.key).mp hp), total_append]
    rfl

theorem mergeInto_total (h : (keysOf l).Nodup) (ps : List Share) :
    (keysOf (mergeInto l ps)).Nodup ∧ total (mergeInto l ps) = total l + total ps := by
  induction ps generalizing l with
  | nil => exact ⟨h, rfl⟩
  | cons p ps ih =>
    obtain ⟨hn, ht⟩ := ih (nodup_addPortion h p)
    refine ⟨hn, ht.trans ?_⟩
    rw [total_addPortion h, total_cons]
    omega

/-- Portions of U-0 alone, merged into a list that holds at most one share of U-0. -/
theorem mergeInto_unknown (hps : ∀ p ∈ ps, p.key = .unknown) (h : (keysOf l).count .unknown ≤ 1) :
    total (mergeInto l ps) = total l + total ps ∧
      (mergeInto l ps).length + (keysOf l).count .unknown ≤ l.length + 1 := by
  induction ps generalizing l with
  | nil => exact ⟨rfl, Nat.add_le_add_left h _⟩
  | cons p ps ih =>
    have hp := hps p List.mem_cons_self
    have hkeys := keysOf_addPortion l p
    have htotal : total (addPortion l p) = total l + p.vol ∧
        (keysOf (addPortion l p)).count .unknown ≤ 1 ∧
        (addPortion l p).length + (keysOf l).count .unknown ≤ l.length + (keysOf (addPortion l p)).count .unknown := by
      by_cases hu : p.key ∈ keysOf l
      · have hone : (keysOf l).count p.key = 1 := by
          have := List.count_pos_iff.mpr hu
          rw [hp] at this ⊢
          omega
        rw [if_pos hu] at hkeys
        rw [hkeys, addPortion_of_mem hu, total_map_addAt_count, hone, List.length_map, Nat.mul_one]
        exact ⟨rfl, h, Nat.le_refl _⟩
      · have hzero : (keysOf l).count .unknown = 0 := List.count_eq_zero.mpr (hp ▸ hu)
        rw [if_neg hu, hp] at hkeys
        rw [hkeys, addPortion, if_neg (mt (hasKey_iff l p.key).mp hu), total_append, List.length_append, List.count_append,
          hzero]
        exact ⟨rfl, by simp, by simp⟩
    obtain ⟨ht, hc, hl⟩ := htotal
    obtain ⟨ih1, ih2⟩ := ih (fun q hq => hps q (List.mem_cons_of_mem _ hq)) hc
    change total (mergeInto (addPortion l p) ps) = _ ∧ (mergeInto (addPortion l p) ps).length + _ ≤ _
    rw [total_cons]
    omega

end merge

section mergeList

variable (dst : Nat) (incoming : Cat) (tag : Nat) {pre ps : List Share}

theorem truncateList_fits {l : List Share} (hn : (keysOf l).Nodup) (h : 12 < l.length) :
    total (truncateList l).1 = total l ∧ (truncateList l).1.length ≤ 12 := by
  obtain ⟨hlen, htot, _⟩ := truncationFoldsTheSmallestIntoUnknown l hn h
  exact ⟨htot, hlen.le⟩

/-- Step (b), whichever way it goes, keeps the volume and leaves 12 shares at most. -/
theorem Merged.stepB_fits (m : Merged) {base list : List Share} (hn : (keysOf list).Nodup) (h12 : 12 < list.length)
    (hbase : base.length ≤ 1) (hlist : total list = total base + total ps) :
    total (m.stepB dst base list ps incoming tag).final = total base + total ps ∧
      (m.stepB dst base list ps incoming tag).final.length ≤ 12 := by
  unfold Merged.stepB
  split
  · rw [← hlist]
    exact truncateList_fits hn h12
  · let known : List Share := ps.filter (fun x => x.key != .unknown)
    let unknown : List Share := ps.filter (fun x => x.key == .unknown)
    let k : Key := .blend m.st.lin.issueBlend
    have hcount : (keysOf (base ++ [⟨k, total known⟩])).count .unknown ≤ 1 := by
      have hb : (keysOf base).count .unknown ≤ base.length := List.count_le_length.trans_eq (List.length_map _)
      rw [show keysOf (base ++ [⟨k, total known⟩]) = keysOf base ++ [k] from List.map_append .., List.count_append,
        List.count_singleton, if_neg (show ¬ (k == Key.unknown) = true by simp [k])]
      omega
    obtain ⟨htot, hlen⟩ := mergeInto_unknown (ps := unknown) (fun p hp => beq_iff_eq.mp (List.mem_filter.mp hp).2) hcount
    have hsplit := total_filter_add (fun y => y.key != .unknown) ps
    have hneg : ps.filter (fun y => !(y.key != .unknown)) = unknown := List.filter_congr fun y _ => Bool.not_not _
    rw [hneg] at hsplit
    rw [total_append, show total [⟨k, total known⟩] = total known from Nat.add_zero _] at htot
    rw [List.length_append, List.length_singleton] at hlen
    constructor
    · refine Eq.trans htot ?_
      change total known + total unknown = total ps at hsplit
      omega
    · change (mergeInto (base ++ [⟨k, total known⟩]) unknown).length ≤ 12
      omega

/-- The merge keeps the volume and leaves 12 shares at most (R33, R38 to R41). -/
theorem State.mergeList_fits (s : State) (hn : (keysOf pre).Nodup) :
    total (s.mergeList dst pre ps incoming tag).final = total pre + total ps ∧
      (s.mergeList dst pre ps incoming tag).final.length ≤ 12 := by
  obtain ⟨hm, ht⟩ := mergeInto_total hn ps
  unfold State.mergeList
  dsimp only
  split
  case isTrue hle => exact ⟨ht, hle⟩
  case isFalse hlong =>
  have h12 : 12 < (mergeInto pre ps).length := Nat.lt_of_not_le hlong
  split
  case isTrue hsmall => exact Merged.stepB_fits dst incoming tag _ hm h12 (Nat.le_of_lt_succ hsmall) ht
  case isFalse hlarge =>
  split
  · rw [← ht]
    exact truncateList_fits hm h12
  · let base : List Share := [⟨.blend s.lin.issueBlend, total pre⟩]
    obtain ⟨hrn, hrt⟩ := mergeInto_total (l := base) (List.nodup_singleton _) ps
    have hbase : total base = total pre := Nat.add_zero _
    rw [← hbase]
    split
    case isTrue hle => exact ⟨hrt, hle⟩
    case isFalse hredone => exact Merged.stepB_fits dst incoming tag _ hrn (Nat.lt_of_not_le hredone) (Nat.le_refl 1) hrt

end mergeList

/-! ## The volume that leaves the source -/

theorem sum_map_vset {α : Type} {n : Nat} (g : α → Nat) (xs : Vector α n) {i : Nat} (hi : i < n) (y d : α) :
    ((vset xs i y).toList.map g).sum + g (vget xs i d) = (xs.toList.map g).sum + g y := by
  have hlen : i < (xs.toList.map g).length := by simpa using hi
  have hset : (vset xs i y).toList.map g = (xs.toList.map g).set i (g y) := by
    rw [← List.map_set]
    exact congrArg (List.map g) (Vector.toList_setIfInBounds ..)
  have hsplit := List.sum_take_add_sum_drop (xs.toList.map g) i
  rw [List.drop_eq_getElem_cons hlen, List.sum_cons] at hsplit
  have hget : (xs.toList.map g)[i] = g (vget xs i d) := by
    rw [vget_lt _ _ _ hi, List.getElem_map, Vector.getElem_toList]
  rw [hset, List.sum_set, if_pos hlen]
  omega

theorem Slot.afterDraw_remaining (c : Slot) (v : Nat) :
    (c.afterDraw v).remainingTotal + (if c.tag = .empty then 0 else min v c.remainingTotal) = c.remainingTotal := by
  by_cases hc : c.tag = .empty
  · rw [if_pos hc, Slot.afterDraw, if_pos (beq_iff_eq.mpr hc), Nat.add_zero]
  · have hle : min v c.remainingTotal ≤ (c.shares.map CompShare.remaining).sum := Nat.min_le_right ..
    have hsub := sum_sub_apportion (v := min v c.remainingTotal) (ws := c.shares.map CompShare.remaining) hle
    have hrem : (c.afterDraw v).remainingTotal = c.remainingTotal - min v c.remainingTotal := by
      rw [c.afterDraw_eq v hc, c.normalPortions_eq v]
      change ((List.zipWith _ c.shares _).map CompShare.remaining).sum = _
      rw [List.map_zipWith]
      refine Eq.trans ?_ hsub
      rw [List.zipWith_map_left]
      rfl
    rw [if_neg hc, hrem]
    have : min v c.remainingTotal ≤ c.remainingTotal := hle
    omega

theorem sub_of_sums {m n x y k : Nat} (h : m + x = n + y) (hk : y + k = x) : m = n - k := by
  omega

section source

theorem Lineage.setUncertain_vessel_ne (l : Lineage) {v u : Nat} (h : v ≠ u) :
    (l.setUncertain v).vessel u = l.vessel u ∧ (l.setUncertain v).rings = l.rings := by
  unfold Lineage.setUncertain
  dsimp only
  cases (l.vessel v).kind with
  | unconfigured => exact ⟨rfl, rfl⟩
  | filler => exact ⟨rfl, rfl⟩
  | store => exact ⟨Lineage.setVessel_ne h _, rfl⟩
  | bay => exact ⟨Lineage.setVessel_ne h _, rfl⟩

variable (s : State) {src dst v : Nat} (tag : Nat) (hne : src ≠ dst)
include hne

theorem State.draw_store_source (hk : (s.lin.vessel src).kind = .store) (hs : (s.lin.vessel src).state ≠ .unseeded) :
    total ((s.draw src dst v tag).st.lin.vessel src).list = total (s.lin.vessel src).list - v := by
  have hlt : src < 64 := s.lin.vessel_lt (by rw [hk]; decide)
  rw [s.draw_store src dst v tag hk]
  by_cases hv : v ≤ total (s.lin.vessel src).list
  · rw [s.drawStore_plain src dst v tag hs hv, ← total_lowered _ hv, ← total_filter_ne (lowered _ _)]
    unfold State.drawPlain
    dsimp only
    rw [State.setLin_lin, Lineage.setVessel_same hlt]
  · rw [s.drawStore_over src dst v tag hs (Nat.lt_of_not_le hv)]
    unfold State.drawOver
    dsimp only
    rw [State.raise_lin]
    change total (((s.lin.setVessel src { s.lin.vessel src with list := [] }).setUncertain dst).vessel src).list = _
    rw [(Lineage.setUncertain_vessel_ne _ hne.symm).1, Lineage.setVessel_same hlt]
    change 0 = _
    omega

theorem State.draw_unseeded_source (hk : (s.lin.vessel src).kind = .store) (hs : (s.lin.vessel src).state = .unseeded) :
    (s.draw src dst v tag).st.lin.vessel src = s.lin.vessel src := by
  rw [s.draw_store src dst v tag hk, s.drawStore_unseeded src dst v tag hs]
  have hd : (s.drawUnseeded src dst v tag).st.lin = s.lin.setUncertain dst := by
    unfold State.drawUnseeded
    dsimp only
    split
    · exact State.raise_lin ..
    · rfl
  rw [hd, (s.lin.setUncertain_vessel_ne hne.symm).1]

theorem State.draw_bay_rings (hk : (s.lin.vessel src).kind = .bay) :
    (s.draw src dst v tag).st.lin.rings = vset s.lin.rings (s.lin.vessel src).bayIndex
      { s.lin.ring (s.lin.vessel src).bayIndex with
        slots := vset (s.lin.ring (s.lin.vessel src).bayIndex).slots (s.lin.ring (s.lin.vessel src).bayIndex).disch
          ((s.lin.ring (s.lin.vessel src).bayIndex).dischSlot.afterDraw v) } := by
  rw [s.draw_bay src dst v tag hk]
  unfold State.drawBay
  dsimp only
  split
  · rfl
  · rw [State.raise_lin]
    exact (Lineage.setUncertain_vessel_ne _ hne.symm).2

theorem State.draw_bay_content (hk : (s.lin.vessel src).kind = .bay) (h8 : (s.lin.vessel src).bayIndex < 8)
    (h6 : (s.lin.ring (s.lin.vessel src).bayIndex).disch < 6) :
    let r := s.lin.ring (s.lin.vessel src).bayIndex
    ((s.draw src dst v tag).st.lin.ring (s.lin.vessel src).bayIndex).content =
      r.content - if r.dischSlot.tag = .empty then 0 else min v r.dischSlot.remainingTotal := by
  intro r
  have hring : (s.draw src dst v tag).st.lin.ring (s.lin.vessel src).bayIndex =
      { r with slots := vset r.slots r.disch (r.dischSlot.afterDraw v) } := by
    unfold Lineage.ring
    rw [s.draw_bay_rings tag hne hk]
    exact vget_vset_same _ _ _ _ h8
  have hsum := sum_map_vset Slot.remainingTotal r.slots h6 (r.dischSlot.afterDraw v) {}
  have hslot := r.dischSlot.afterDraw_remaining v
  rw [hring]
  exact sub_of_sums hsum hslot

end source

/-! ## The obligation -/

theorem Lineage.content_eq_total (l : Lineage) {x : Vessel} (h : x.kind = .store ∨ x.kind = .filler) :
    l.content x = total (l.listOf x) := by
  obtain h | h := h
  · simp only [Lineage.content, Lineage.listOf, h]
  · simp only [Lineage.content, Lineage.listOf, h]
    cases l.openBatchOf x <;> rfl

/-- Settles O47: what the draw yields stands in the destination or is discarded; what leaves the source follows its
kind. -/
theorem transfersConserveVolume : Obligations.TransfersConserveVolume := by
  intro s src dst v tag doubt a b hne hv ha hb hcs hcd he hsound hbay r l
  let u := s.prepareDst dst tag doubt
  let d := u.draw src dst v tag
  have hprep := s.prepareDst_prepared tag doubt hb hcd he
  have hd : DrawnFrom s src dst d := State.draw_from hne ha hb hcd he
  have hsrcU : u.lin.vessel src = a := hprep.vessels src hne
  have hringsU : u.lin.rings = s.lin.rings := hprep.rings
  have hv' : total d.portions = v := u.draw_total (by rw [hsrcU]; exact ha)
  obtain ⟨hmerged, hdisc, -, -, -, -, -, -, -, -, -, hlist, -, -, -, hstore, hfiller, hsource, hrings, -⟩ :=
    transfersMergeWhatIsDrawn s src dst v tag doubt hne hv ha hb hcs hcd he
  have hcut := ceilingCut_eq (total (s.lin.listOf b)) d.portions
  have hvol := ceilingCut_total (total (s.lin.listOf b)) d.portions
  have hm : (ceilingCut (total (s.lin.listOf b)) d.portions).1 = r.merged := (congrArg Prod.fst hcut).trans hmerged.symm
  have hx : (ceilingCut (total (s.lin.listOf b)) d.portions).2 = r.discarded := (congrArg Prod.snd hcut).trans hdisc.symm
  have hfin : total (l.listOf (l.vessel dst)) = total (s.lin.listOf b) + total r.merged ∧
      (l.listOf (l.vessel dst)).length ≤ 12 := by
    rw [hlist, hmerged]
    exact State.mergeList_fits dst _ tag _ hsound.2.1
  have hkb : b.kind = .store ∨ b.kind = .filler := hb.imp_right And.left
  have hkl : (l.vessel dst).kind = .store ∨ (l.vessel dst).kind = .filler := hkb.imp
    (fun h => by rw [hstore h]; exact h) (fun h => by rw [hfiller h]; exact h)
  rw [Lineage.content_eq_total _ hkb, Lineage.content_eq_total _ hkl]
  rw [hm, hx, hv'] at hvol
  refine ⟨by omega, by omega, hfin.2, fun hk hs => ?_, fun hk hs => ?_, fun hk => ?_⟩
  · have hdraw := u.draw_store_source (v := v) tag hne (by rw [hsrcU]; exact hk) (by rw [hsrcU, hs]; nofun)
    rw [hsource, ← hsrcU]
    exact hdraw
  · have hdraw := u.draw_unseeded_source (v := v) tag hne (by rw [hsrcU]; exact hk) (by rw [hsrcU]; exact hs)
    rw [hsource, ← hsrcU, ← hdraw]
  · intro c
    have hring : ∀ i, u.lin.ring i = s.lin.ring i := fun i => congrArg (fun rs : Vector Ring 8 => vget rs i {}) hringsU
    have hlring : l.ring a.bayIndex = d.st.lin.ring a.bayIndex :=
      congrArg (fun rs : Vector Ring 8 => vget rs a.bayIndex {}) hrings
    have hdraw := u.draw_bay_content (v := v) tag hne (by rw [hsrcU]; exact hk) (by rw [hsrcU]; exact (hbay hk).1)
      (by rw [hsrcU, hring]; exact (hbay hk).2)
    rw [hsrcU, hring] at hdraw
    rw [hlring]
    exact hdraw

end Sys2Proof.Machine

/-! The sweeps (R125, R126): a pass visits the blends in table order, flags only grow, and the passes end at the first
that changes nothing. -/

namespace Sys2Proof.Machine

open Sys2Proof

/-! ## Flags that only grow -/

/-- A blend with its derived flag as it was or set. -/
def FlagGrown (b c : Nat × BlendRec) : Prop :=
  c = (b.1, { b.2 with derived := c.2.derived }) ∧ (b.2.derived = true → c.2.derived = true)

/-- A lineage state whose blends' flags grew, nothing else changed. -/
structure FlagsGrown (l k : Lineage) : Prop where
  others : k = { l with blends := k.blends }
  blends : List.Forall₂ FlagGrown l.blends k.blends

theorem FlagGrown.refl (b : Nat × BlendRec) : FlagGrown b b := ⟨rfl, id⟩

theorem FlagGrown.trans {b c d : Nat × BlendRec} (h : FlagGrown b c) (g : FlagGrown c d) : FlagGrown b d := by
  refine ⟨g.1.trans ?_, g.2 ∘ h.2⟩
  rw [h.1]

theorem FlagGrown.serial {b c : Nat × BlendRec} (h : FlagGrown b c) : c.2.serial = b.2.serial := by
  rw [h.1]

theorem FlagGrown.members {b c : Nat × BlendRec} (h : FlagGrown b c) : c.2.members = b.2.members := by
  rw [h.1]
  rfl

theorem FlagGrown.of_flag {b c : Nat × BlendRec} (h : FlagGrown b c) (e : c.2.derived = b.2.derived) : c = b := by
  rw [h.1, e]

section grown

variable {l k m : Lineage}

theorem FlagsGrown.refl (l : Lineage) : FlagsGrown l l :=
  ⟨rfl, List.forall₂_same.mpr fun b _ => FlagGrown.refl b⟩

theorem forall₂_trans {α : Type} {R : α → α → Prop} (hR : ∀ a b c, R a b → R b c → R a c) {xs ys zs : List α}
    (h : List.Forall₂ R xs ys) (g : List.Forall₂ R ys zs) : List.Forall₂ R xs zs := by
  induction h generalizing zs with
  | nil => exact g
  | cons hab _ ih =>
    cases g with
    | cons hbc g => exact .cons (hR _ _ _ hab hbc) (ih g)

theorem FlagsGrown.trans (h : FlagsGrown l k) (g : FlagsGrown k m) : FlagsGrown l m := by
  refine ⟨?_, forall₂_trans (R := FlagGrown) (fun _ _ _ => FlagGrown.trans) h.blends g.blends⟩
  rw [g.others, h.others]

theorem FlagsGrown.length (h : FlagsGrown l k) : k.blends.length = l.blends.length := h.blends.length_eq.symm

theorem map_eq_of_forall₂ {α β : Type} {R : α → α → Prop} {f : α → β} (hf : ∀ a b, R a b → f b = f a) {xs ys : List α}
    (h : List.Forall₂ R xs ys) : ys.map f = xs.map f := by
  induction h with
  | nil => rfl
  | cons hab _ ih => rw [List.map_cons, List.map_cons, hf _ _ hab, ih]

theorem FlagsGrown.serials (h : FlagsGrown l k) :
    k.blends.map (fun b => b.2.serial) = l.blends.map (fun b => b.2.serial) :=
  map_eq_of_forall₂ (R := FlagGrown) (fun _ _ => FlagGrown.serial) h.blends

theorem find?_grown {n : Nat} {xs ys : List (Nat × BlendRec)} (h : List.Forall₂ FlagGrown xs ys) {b : Nat × BlendRec}
    (hb : xs.find? (fun p => p.2.serial == n) = some b) :
    ∃ c, ys.find? (fun p => p.2.serial == n) = some c ∧ FlagGrown b c := by
  induction h with
  | nil => cases hb
  | @cons x y xs ys hxy _ ih =>
    rw [List.find?_cons] at hb ⊢
    rw [hxy.serial]
    cases hx : x.2.serial == n with
    | true =>
      rw [hx] at hb
      exact ⟨y, rfl, Option.some.inj hb ▸ hxy⟩
    | false =>
      rw [hx] at hb
      exact ih hb

theorem FlagsGrown.keySuspect (h : FlagsGrown l k) {key : Key} (hs : l.keySuspect key = true) :
    k.keySuspect key = true := by
  cases key with
  | unknown => exact hs
  | coll n =>
    rw [h.others]
    exact hs
  | blend n =>
    unfold Lineage.keySuspect Lineage.findBlend at hs ⊢
    dsimp only at hs ⊢
    cases hb : l.blends.find? (fun p => p.2.serial == n) with
    | none =>
      rw [hb] at hs
      cases hs
    | some b =>
      rw [hb] at hs
      obtain ⟨c, hc, hg⟩ := find?_grown h.blends hb
      rw [hc]
      exact hg.2 hs

theorem FlagsGrown.listSuspect (h : FlagsGrown l k) {ks : List Key} (hs : l.listSuspect ks = true) :
    k.listSuspect ks = true := by
  obtain ⟨key, hk, hs⟩ := List.any_eq_true.mp hs
  exact List.any_eq_true.mpr ⟨key, hk, h.keySuspect hs⟩

/-- Every flag that was set has a cause. -/
def Caused (l k : Lineage) : Prop :=
  List.Forall₂ (fun b c => c.2.derived = true → b.2.derived = true ∨ k.listSuspect (keysOf b.2.members) = true)
    l.blends k.blends

end grown

/-! ## The number of flags -/

/-- The number of flagged blends. -/
def Lineage.flagged (l : Lineage) : Nat := l.blends.countP (fun b => b.2.derived)

theorem countP_grown {xs ys : List (Nat × BlendRec)} (h : List.Forall₂ FlagGrown xs ys) :
    xs.countP (fun b => b.2.derived) ≤ ys.countP (fun b => b.2.derived) ∧
      (xs.countP (fun b => b.2.derived) = ys.countP (fun b => b.2.derived) → ys = xs) := by
  induction h with
  | nil => exact ⟨Nat.le_refl _, fun _ => rfl⟩
  | @cons x y xs ys hxy _ ih =>
    rw [List.countP_cons, List.countP_cons]
    cases hx : x.2.derived with
    | true =>
      have hy := hxy.2 hx
      rw [hy]
      refine ⟨Nat.add_le_add_right ih.1 _, fun e => ?_⟩
      rw [ih.2 (Nat.add_right_cancel e), hxy.of_flag (hy.trans hx.symm)]
    | false =>
      cases hy : y.2.derived with
      | true =>
        refine ⟨Nat.le_add_right_of_le ih.1, fun e => ?_⟩
        exact absurd e (Nat.ne_of_lt (Nat.lt_succ_of_le ih.1))
      | false =>
        refine ⟨ih.1, fun e => ?_⟩
        rw [ih.2 e, hxy.of_flag (hy.trans hx.symm)]

section count

variable {l k : Lineage} (h : FlagsGrown l k)
include h

theorem FlagsGrown.flagged_le : l.flagged ≤ k.flagged := (countP_grown h.blends).1

theorem FlagsGrown.eq_of_flagged (e : l.flagged = k.flagged) : k = l := by
  rw [h.others, (countP_grown h.blends).2 e]

theorem FlagsGrown.flagged_eq_iff : l.flagged = k.flagged ↔ k = l :=
  ⟨h.eq_of_flagged, fun e => by rw [e]⟩

end count

theorem Lineage.flagged_le_length (l : Lineage) : l.flagged ≤ l.blends.length := List.countP_le_length

/-! ## A visit and a pass -/

/-- A visit to the blend at a place of the table. -/
def Lineage.visitAt (l : Lineage) (i : Nat) : Lineage := { l with
  blends := l.blends.modify i (fun b =>
    (b.1, { b.2 with derived := b.2.derived || l.listSuspect (keysOf b.2.members) })) }

theorem forall₂_modify {α : Type} {R : α → α → Prop} {f : α → α} (hr : ∀ a, R a a) (hf : ∀ a, R a (f a)) (xs : List α)
    (i : Nat) : List.Forall₂ R xs (xs.modify i f) := by
  induction xs generalizing i with
  | nil =>
    rw [List.modify_nil]
    exact .nil
  | cons x xs ih =>
    cases i with
    | zero => exact .cons (hf x) (List.forall₂_same.mpr fun a _ => hr a)
    | succ i => exact .cons (hr x) (ih i)

section visit

variable (l : Lineage) (i : Nat)

theorem Lineage.visitAt_grown : FlagsGrown l (l.visitAt i) :=
  ⟨rfl, forall₂_modify FlagGrown.refl (fun b => ⟨rfl, fun h => by simp [h]⟩) _ _⟩

theorem Lineage.visitAt_caused : Caused l (l.visitAt i) := by
  have hg := l.visitAt_grown i
  refine forall₂_modify (fun b hb => .inl hb) (fun b hb => ?_) _ _
  exact (Bool.or_eq_true _ _ ▸ hb : _ ∨ _).imp_right hg.listSuspect

theorem Caused.trans {l k m : Lineage} (hg : FlagsGrown l k) (hk : FlagsGrown k m) (h : Caused l k) (g : Caused k m) :
    Caused l m := by
  obtain ⟨_, hb⟩ := hg
  have hmono : ∀ ks, k.listSuspect ks = true → m.listSuspect ks = true := fun ks => hk.listSuspect
  unfold Caused at h g ⊢
  generalize m.blends = zs at g ⊢
  generalize k.blends = ys at h hb g
  generalize l.blends = xs at h hb
  induction hb generalizing zs with
  | nil =>
    cases g
    exact .nil
  | cons hxy _ ih =>
    cases g with
    | cons hyz g =>
      cases h with
      | cons hc h =>
        refine .cons (fun hz => ?_) (ih _ g h)
        rcases hyz hz with e | e
        · exact (hc e).imp_right (hmono _)
        · rw [hxy.members] at e
          exact .inr e

end visit

/-- A pass over the first places of the table. -/
def Lineage.passOver (l : Lineage) (is : List Nat) : Lineage := is.foldl Lineage.visitAt l

theorem Caused.refl (l : Lineage) : Caused l l := List.forall₂_same.mpr fun _ _ h => .inl h

theorem Lineage.passOver_spec (is : List Nat) (l : Lineage) :
    FlagsGrown l (l.passOver is) ∧ Caused l (l.passOver is) := by
  induction is generalizing l with
  | nil => exact ⟨.refl l, .refl l⟩
  | cons i is ih =>
    obtain ⟨hg, hc⟩ := ih (l.visitAt i)
    exact ⟨(l.visitAt_grown i).trans hg, Caused.trans (l.visitAt_grown i) hg (l.visitAt_caused i) hc⟩

/-- A pass that changes nothing changes nothing at any place. -/
theorem Lineage.visitAt_of_passOver {is : List Nat} {l : Lineage} (h : l.passOver is = l) :
    ∀ i ∈ is, l.visitAt i = l := by
  induction is with
  | nil => exact fun _ hi => nomatch hi
  | cons i is ih =>
    have hfirst := l.visitAt_grown i
    have hrest := ((l.visitAt i).passOver_spec is).1
    have hle := hrest.flagged_le
    rw [show (l.visitAt i).passOver is = l from h] at hle
    have he : l.visitAt i = l := hfirst.eq_of_flagged (Nat.le_antisymm hfirst.flagged_le hle)
    refine fun j hj => (List.mem_cons.mp hj).elim (fun e => e ▸ he) (ih ?_ j)
    have h' : (l.visitAt i).passOver is = l := h
    rw [he] at h'
    exact h'

/-! ## The model's passes (R125) -/

/-- The serials of the Blend Table. -/
def Lineage.blendSerials (l : Lineage) : List Nat := l.blends.map (fun b => b.2.serial)

section model

variable {l : Lineage} (hn : l.blendSerials.Nodup)

include hn in
theorem Lineage.findBlend_at {i : Nat} (hi : i < l.blends.length) :
    l.findBlend l.blends[i].2.serial = some l.blends[i] := by
  refine List.find?_eq_some_iff_getElem.mpr ⟨beq_self_eq_true _, i, hi, rfl, fun j hj => ?_⟩
  have hne : l.blends[j].2.serial ≠ l.blends[i].2.serial := fun e => by
    have hij : l.blendSerials[j]'(by rw [Lineage.blendSerials, List.length_map]; omega) =
        l.blendSerials[i]'(by rw [Lineage.blendSerials, List.length_map]; exact hi) := by
      simpa [Lineage.blendSerials] using e
    have := (List.Nodup.getElem_inj_iff hn).mp hij
    omega
  simpa using hne

include hn in
theorem Lineage.updBlend_at {i : Nat} (hi : i < l.blends.length) (f : BlendRec → BlendRec) :
    l.updBlend l.blends[i].2.serial f = { l with blends := l.blends.modify i (fun b => (b.1, f b.2)) } := by
  have hmap : l.blends.map (fun p => if p.2.serial == l.blends[i].2.serial then (p.1, f p.2) else p) =
      l.blends.modify i (fun b => (b.1, f b.2)) := by
    refine List.ext_getElem (by simp) fun j hj _ => ?_
    rw [List.length_map] at hj
    rw [List.getElem_map, List.getElem_modify]
    have hiff : l.blends[j].2.serial = l.blends[i].2.serial ↔ i = j := by
      have := List.Nodup.getElem_inj_iff hn (i := j) (j := i)
        (hi := by rw [Lineage.blendSerials, List.length_map]; exact hj)
        (hj := by rw [Lineage.blendSerials, List.length_map]; exact hi)
      simp only [Lineage.blendSerials, List.getElem_map] at this
      exact this.trans eq_comm
    exact if_congr (beq_iff_eq.trans hiff) rfl rfl
  exact congrArg (fun bs => { l with blends := bs }) hmap

theorem modify_eq_self {α : Type} {f : α → α} {xs : List α} {i : Nat} (hi : i < xs.length) (h : f xs[i] = xs[i]) :
    xs.modify i f = xs := by
  refine List.ext_getElem (by simp) fun j _ _ => ?_
  rw [List.getElem_modify]
  split
  · rename_i e
    subst e
    exact h
  · rfl

theorem Lineage.visitAt_self {i : Nat} (hi : i < l.blends.length)
    (h : l.listSuspect (keysOf l.blends[i].2.members) = true → l.blends[i].2.derived = true) : l.visitAt i = l := by
  have hb : (l.blends[i].2.derived || l.listSuspect (keysOf l.blends[i].2.members)) = l.blends[i].2.derived := by
    cases hd : l.blends[i].2.derived with
    | true => rfl
    | false =>
      rw [Bool.false_or]
      exact Bool.eq_false_iff.mpr fun hs => by
        rw [h hs] at hd
        cases hd
  exact congrArg (fun bs => { l with blends := bs }) (modify_eq_self
    (f := fun b => (b.1, { b.2 with derived := b.2.derived || l.listSuspect (keysOf b.2.members) })) hi (by dsimp only; rw [hb]))

theorem Lineage.flagged_visitAt {i : Nat} (hi : i < l.blends.length) (hd : l.blends[i].2.derived = false)
    (hs : l.listSuspect (keysOf l.blends[i].2.members) = true) : (l.visitAt i).flagged = l.flagged + 1 := by
  have hsplit : l.blends = l.blends.take i ++ l.blends[i] :: l.blends.drop (i + 1) := by
    rw [← List.drop_eq_getElem_cons hi, List.take_append_drop]
  have hset : (l.visitAt i).blends = l.blends.take i ++ (l.blends[i].1, { l.blends[i].2 with derived := true }) ::
      l.blends.drop (i + 1) := by
    change l.blends.modify i _ = _
    rw [List.modify_eq_take_cons_drop hi, hs, Bool.or_true]
  unfold Lineage.flagged
  rw [hset]
  conv_rhs => rw [hsplit]
  rw [List.countP_append, List.countP_append, List.countP_cons_of_pos rfl, List.countP_cons_of_neg (by simp [hd])]
  omega

include hn in
theorem Lineage.visit_eq {i : Nat} (hi : i < l.blends.length) (c : Nat) :
    Lineage.visit (l, c) l.blends[i].2.serial = (l.visitAt i, c + ((l.visitAt i).flagged - l.flagged)) := by
  unfold Lineage.visit
  dsimp only
  rw [Lineage.findBlend_at hn hi]
  dsimp only
  by_cases hp : (!l.blends[i].2.derived && l.listSuspect (keysOf l.blends[i].2.members)) = true
  · obtain ⟨hd, hs⟩ := (Bool.and_eq_true _ _).mp hp
    have hd' : l.blends[i].2.derived = false := by simpa using hd
    rw [if_pos hp, Lineage.flagged_visitAt hi hd' hs, Nat.add_sub_cancel_left, Lineage.updBlend_at hn hi]
    refine congrArg (fun bs => (({ l with blends := bs } : Lineage), c + 1)) (List.ext_getElem (by simp) fun j _ _ => ?_)
    rw [List.getElem_modify, List.getElem_modify]
    split
    · rename_i e
      subst e
      rw [hs, Bool.or_true]
    · rfl
  · rw [if_neg hp, Lineage.visitAt_self hi fun hs => by simpa [hs] using hp, Nat.sub_self]
    rfl

/-- A pass over the whole table. -/
def Lineage.fullPass (l : Lineage) : Lineage := l.passOver (List.range l.blends.length)

theorem Lineage.visits_eq (S : List Nat) (hn : S.Nodup) (is : List Nat) {l : Lineage} (hS : l.blendSerials = S)
    (his : ∀ i ∈ is, i < S.length) (c : Nat) : (is.map (fun i => S.getD i 0)).foldl Lineage.visit (l, c) =
      (l.passOver is, c + ((l.passOver is).flagged - l.flagged)) := by
  induction is generalizing l c with
  | nil => exact congrArg (Prod.mk l) (by rw [show l.passOver [] = l from rfl, Nat.sub_self]; rfl)
  | cons i is ih =>
    have hi := his i List.mem_cons_self
    have hi' : i < l.blends.length := by rwa [← hS, Lineage.blendSerials, List.length_map] at hi
    have hg := l.visitAt_grown i
    have hle := ((l.visitAt i).passOver_spec is).1.flagged_le
    have hserial : S.getD i 0 = l.blends[i].2.serial := by
      rw [List.getD_eq_getElem _ _ hi]
      simp only [← hS, Lineage.blendSerials, List.getElem_map]
    rw [List.map_cons, List.foldl_cons, hserial, Lineage.visit_eq (hS ▸ hn) hi',
      ih (hg.serials.trans hS) fun j hj => his j (List.mem_cons_of_mem _ hj)]
    refine congrArg (Prod.mk _) ?_
    change c + ((l.visitAt i).flagged - l.flagged) + (((l.visitAt i).passOver is).flagged - (l.visitAt i).flagged) =
      c + (((l.visitAt i).passOver is).flagged - l.flagged)
    have := hg.flagged_le
    omega

include hn in
theorem Lineage.pass_eq : l.pass = (l.fullPass, l.fullPass.flagged - l.flagged) := by
  have hserials : l.blends.map (fun e => e.2.serial) =
      (List.range l.blends.length).map (fun i => l.blendSerials.getD i 0) := by
    refine List.ext_getElem (by simp) fun i hi _ => ?_
    rw [List.length_map] at hi
    simp [Lineage.blendSerials, hi]
  unfold Lineage.pass
  rw [hserials, Lineage.visits_eq l.blendSerials hn _ rfl (fun i hi => by
    rw [Lineage.blendSerials, List.length_map]
    exact List.mem_range.mp hi), Nat.zero_add]
  rfl

theorem Lineage.fullPass_grown (l : Lineage) : FlagsGrown l l.fullPass := (l.passOver_spec _).1

/-- The passes of a sweep end at the first that changes nothing. -/
theorem Lineage.passes_eq (fuel : Nat) {l : Lineage} (hn : l.blendSerials.Nodup)
    (hf : l.blends.length < fuel + l.flagged) : ∃ n, Lineage.passes fuel l = (Lineage.fullPass^[n + 1] l, n + 1) ∧
      n + l.flagged ≤ l.blends.length ∧ Lineage.fullPass^[n + 1] l = Lineage.fullPass^[n] l ∧
      ∀ k, k < n → Lineage.fullPass^[k + 1] l ≠ Lineage.fullPass^[k] l := by
  induction fuel generalizing l with
  | zero =>
    have := l.flagged_le_length
    omega
  | succ fuel ih =>
    have hg := l.fullPass_grown
    unfold Lineage.passes
    rw [Lineage.pass_eq hn]
    dsimp only
    by_cases he : l.fullPass = l
    · have hset : l.fullPass.flagged - l.flagged = 0 := by rw [he, Nat.sub_self]
      rw [if_pos (beq_iff_eq.mpr hset)]
      exact ⟨0, rfl, by have := l.flagged_le_length; omega, he, fun k hk => absurd hk (Nat.not_lt_zero k)⟩
    · have hlt : l.flagged < l.fullPass.flagged :=
        Nat.lt_of_le_of_ne hg.flagged_le fun e => he (hg.eq_of_flagged e)
      have hset : ¬ l.fullPass.flagged - l.flagged = 0 := by omega
      have hlen := hg.length
      obtain ⟨n, hp, hbound, hlast, hbefore⟩ := ih (l := l.fullPass)
        (show (l.fullPass.blends.map _).Nodup by rw [hg.serials]; exact hn) (by omega)
      rw [if_neg (by simpa using hset), hp]
      refine ⟨n + 1, rfl, by omega, hlast, fun k hk => ?_⟩
      cases k with
      | zero => exact he
      | succ k => exact hbefore k (Nat.lt_of_succ_lt_succ hk)

theorem Lineage.rounds_spec (l : Lineage) (n : Nat) :
    FlagsGrown l (Lineage.fullPass^[n] l) ∧ Caused l (Lineage.fullPass^[n] l) := by
  induction n generalizing l with
  | zero => exact ⟨.refl l, .refl l⟩
  | succ n ih =>
    obtain ⟨hg, hc⟩ := ih l.fullPass
    exact ⟨l.fullPass_grown.trans hg, Caused.trans l.fullPass_grown hg (l.passOver_spec _).2 hc⟩

/-- Behind a pass that changes nothing the flags are a fixpoint over those at the start. -/
theorem FlagsGrown.fixpoint {l k : Lineage} (hg : FlagsGrown l k) (hc : Caused l k) (hfix : k.fullPass = k) :
    k.blends = l.blends.map (fun b =>
      (b.1, { b.2 with derived := b.2.derived || k.listSuspect (keysOf b.2.members) })) := by
  have hlen := hg.length
  refine List.ext_getElem (by rw [List.length_map, hlen]) fun i hi hj => ?_
  have hi' : i < l.blends.length := by rw [← hlen]; exact hi
  rw [List.getElem_map]
  have hgrown : FlagGrown l.blends[i] k.blends[i] := (List.forall₂_iff_get.mp hg.blends).2 i hi' hi
  have hcause : k.blends[i].2.derived = true →
      l.blends[i].2.derived = true ∨ k.listSuspect (keysOf l.blends[i].2.members) = true :=
    (List.forall₂_iff_get.mp hc).2 i hi' hi
  have hvisit : k.visitAt i = k := Lineage.visitAt_of_passOver hfix i (List.mem_range.mpr hi)
  have hsusp : k.listSuspect (keysOf l.blends[i].2.members) = true → k.blends[i].2.derived = true := fun hs => by
    have hb : (k.visitAt i).blends[i]? = k.blends[i]? := by rw [hvisit]
    rw [show (k.visitAt i).blends = k.blends.modify i _ from rfl, List.getElem?_modify_eq, List.getElem?_eq_getElem hi]
      at hb
    have hset : (k.blends[i].2.derived || k.listSuspect (keysOf k.blends[i].2.members)) = k.blends[i].2.derived :=
      congrArg (fun b : Nat × BlendRec => b.2.derived) (Option.some.inj hb)
    rw [← hset, hgrown.members, hs, Bool.or_true]
  have hflag : k.blends[i].2.derived = (l.blends[i].2.derived || k.listSuspect (keysOf l.blends[i].2.members)) := by
    rw [Bool.eq_iff_iff, Bool.or_eq_true]
    exact ⟨hcause, fun h => h.elim hgrown.2 hsusp⟩
  rw [← hflag]
  exact hgrown.1

end model

end Sys2Proof.Machine

/-! The suspect commands, O59: the marks (R121 to R124). -/

namespace Sys2Proof.Machine

open Sys2Proof

/-! ## What a command names -/

/-- A collection is named by a command's argument. -/
def CollRec.namedBy (r : CollRec) : MarkArg → Bool
  | .key k => k == ⟨1, r.serial⟩
  | .sample n => r.info.any (fun i => i.sample == some n)
  | .farm n => r.info.any (fun i => i.farm == n)

/-- A blend is named by a command's argument. -/
def BlendRec.namedBy (r : BlendRec) (arg : MarkArg) : Bool := arg == .key ⟨2, r.serial⟩

/-- The farm list behind a command. -/
def farmsAfter (farms : List Nat) (release : Bool) (arg : MarkArg) : List Nat :=
  match release, arg with
  | false, .farm n => if farms.contains n then farms else farms ++ [n]
  | true, .farm n => farms.filter (· != n)
  | _, _ => farms

/-- The direct mark of a blend behind a command. -/
def BlendRec.directBy (b : BlendRec) (release : Bool) (arg : MarkArg) : Bool :=
  if b.namedBy arg then !release else b.direct

/-- The flag of a blend as the sweep starts. -/
def BlendRec.startFlag (b : BlendRec) (release : Bool) (arg : MarkArg) : Bool :=
  if release then b.directBy release arg else b.derived || (b.namedBy arg && !b.direct)

/-- The lineage state as the sweep starts. -/
def Lineage.markedBy (l : Lineage) (release : Bool) (arg : MarkArg) : Lineage := { l with
  colls := l.colls.map (fun c => (c.1, { c.2 with mark := if c.2.namedBy arg then !release else c.2.mark }))
  blends := l.blends.map (fun b =>
    (b.1, { b.2 with direct := b.2.directBy release arg, derived := b.2.startFlag release arg }))
  farms := farmsAfter l.farms release arg }

/-- The state in which a sweep starts, from the marks of phase 1. -/
def Marked.start (m : Marked) (release : Bool) : Lineage :=
  if release then m.lin.resetDerived else m.lin.markDirect m.direct

/-- What phase 1 leaves for an argument it accepts. -/
structure Marks (l : Lineage) (release : Bool) (arg : MarkArg) (m : Marked) : Prop where
  result : m.result = .done
  marks : m.marks = (l.colls.filter (fun c => c.2.namedBy arg && c.2.mark == release)).length
  direct : m.direct.isSome = l.blends.any (fun b => b.2.namedBy arg && b.2.direct == release)
  start : m.start release = l.markedBy release arg

section marks

variable {l : Lineage} {release : Bool} {arg : MarkArg}

theorem BlendRec.directBy_of_unnamed {b : BlendRec} (h : b.namedBy arg = false) (release : Bool) :
    b.directBy release arg = b.direct := by
  unfold BlendRec.directBy
  rw [h]
  exact if_neg Bool.false_ne_true

theorem BlendRec.startFlag_of_unnamed {b : BlendRec} (h : b.namedBy arg = false) (release : Bool) :
    b.startFlag release arg = if release = true then b.direct else b.derived := by
  unfold BlendRec.startFlag
  rw [BlendRec.directBy_of_unnamed h, h, Bool.false_and, Bool.or_false]

/-- The marks on the collections alone. -/
theorem Lineage.markWhere_marks (farms : List Nat) (hfarms : farms = farmsAfter l.farms release arg) {p : CollRec → Bool}
    (hp : ∀ r, p r = r.namedBy arg) (hb : ∀ b : BlendRec, b.namedBy arg = false) :
    Marks l release arg (({ l with farms := farms } : Lineage).markWhere (!release) p) := by
  have hcolls : ∀ c : Nat × CollRec, (if p c.2 then (c.1, { c.2 with mark := !release }) else c) =
      (c.1, { c.2 with mark := if c.2.namedBy arg then !release else c.2.mark }) := fun c => by
    rw [hp]
    split <;> rfl
  refine ⟨rfl, ?_, ?_, ?_⟩
  · unfold Lineage.markWhere Lineage.collsWhere
    dsimp only
    rw [List.filter_map, List.filter_map, List.length_map, List.filter_filter]
    refine congrArg List.length (List.filter_congr fun c _ => ?_)
    simp only [Function.comp, hp]
    cases c.2.mark <;> cases release <;> simp
  · simp [hb, Lineage.markWhere]
  · unfold Marked.start Lineage.markWhere Lineage.markedBy
    dsimp only
    simp only [hcolls, hfarms, BlendRec.directBy_of_unnamed (hb _), BlendRec.startFlag_of_unnamed (hb _)]
    cases release with
    | true => rfl
    | false =>
      change Lineage.mk .. = _
      exact congrArg (fun bs => ({ l with
        colls := _, blends := bs, farms := farmsAfter l.farms false arg } : Lineage)) (List.map_id _).symm

section blend

variable {n i : Nat} {r : BlendRec} (hn : l.blendSerials.Nodup) (hf : l.findBlend n = some (i, r))
include hf

theorem Lineage.findBlend_serial : (i, r) ∈ l.blends ∧ r.serial = n :=
  ⟨List.mem_of_find?_eq_some hf, by simpa using List.find?_some hf⟩

include hn

theorem Lineage.findBlend_unique {b : Nat × BlendRec} (hb : b ∈ l.blends) (hs : b.2.serial = n) : b = (i, r) := by
  obtain ⟨j, hj, rfl⟩ := List.mem_iff_getElem.mp hb
  have := Lineage.findBlend_at hn hj
  rw [hs, hf] at this
  exact (Option.some.inj this).symm

/-- The direct mark of one blend. -/
theorem Lineage.markBlend_marks : Marks l release (.key ⟨2, n⟩) (l.markKey (!release) (.blend n)) := by
  have hmark : l.markKey (!release) (.blend n) =
      { lin := l.updBlend n (fun b => { b with direct := !release }), result := .done,
        direct := if r.direct == !release then none else some n } := by
    simp only [Lineage.markKey, hf]
  have hnamed : ∀ b : BlendRec, b.namedBy (.key ⟨2, n⟩) = (b.serial == n) := fun b => by
    rw [Bool.eq_iff_iff, beq_iff_eq]
    refine beq_iff_eq.trans ⟨fun h => ?_, fun h => by rw [h]⟩
    injection h with h
    injection h with _ h
    exact h.symm
  have hcoll : ∀ c : CollRec, c.namedBy (.key ⟨2, n⟩) = false := fun c =>
    beq_eq_false_iff_ne.mpr fun h => by injection h with h; exact absurd h (by decide)
  obtain ⟨hmem, hserial⟩ := Lineage.findBlend_serial hf
  rw [hmark]
  refine ⟨rfl, by simp [hcoll], ?_, ?_⟩
  · rw [Bool.eq_iff_iff, List.any_eq_true]
    have hsome : (if r.direct == !release then none else some n).isSome = true ↔ r.direct = release := by
      cases r.direct <;> cases release <;> simp
    refine hsome.trans ⟨fun h => ⟨(i, r), hmem, by simp [hnamed, hserial, h]⟩, fun ⟨b, hb, h⟩ => ?_⟩
    obtain ⟨h1, h2⟩ := (Bool.and_eq_true _ _).mp h
    rw [hnamed] at h1
    rw [Lineage.findBlend_unique hn hf hb (beq_iff_eq.mp h1)] at h2
    exact beq_iff_eq.mp h2
  · have hcolls : l.colls.map (fun c =>
        (c.1, { c.2 with mark := if c.2.namedBy (.key ⟨2, n⟩) then !release else c.2.mark })) = l.colls := by
      simp [hcoll]
    have hfarms : farmsAfter l.farms release (.key ⟨2, n⟩) = l.farms := by cases release <;> rfl
    have hblend : ∀ b ∈ l.blends, b.2.serial = n → b.2 = r := fun b hb hs => by
      rw [Lineage.findBlend_unique hn hf hb hs]
    have hblends : ∀ m : Lineage, m = { l with blends := m.blends } → m.blends = l.blends.map (fun b =>
        (b.1, { b.2 with
          direct := b.2.directBy release (.key ⟨2, n⟩), derived := b.2.startFlag release (.key ⟨2, n⟩) })) →
        m = l.markedBy release (.key ⟨2, n⟩) := fun m hm hb => by
      unfold Lineage.markedBy
      rw [hcolls, hfarms, ← hb]
      exact hm
    have hdirect : ∀ b : BlendRec, b.directBy release (.key ⟨2, n⟩) = if b.serial == n then !release else b.direct :=
      fun b => by
        unfold BlendRec.directBy
        rw [hnamed]
    unfold Marked.start
    dsimp only
    cases release with
    | true =>
      refine hblends _ rfl ((List.map_map ..).trans (List.map_congr_left fun b _ => ?_))
      unfold BlendRec.startFlag
      rw [if_pos rfl, hdirect]
      dsimp only [Function.comp]
      split <;> rfl
    | false =>
      have hflag : ∀ b ∈ l.blends, b.2.startFlag false (.key ⟨2, n⟩) =
          if b.2.serial == n then b.2.derived || !r.direct else b.2.derived := fun b hb => by
        unfold BlendRec.startFlag
        rw [if_neg Bool.false_ne_true, hnamed]
        by_cases hs : b.2.serial = n
        · rw [hblend b hb hs, if_pos (beq_iff_eq.mpr (hblend b hb hs ▸ hs)), hserial, beq_self_eq_true, Bool.true_and]
        · rw [if_neg (by simpa using hs), beq_eq_false_iff_ne.mpr hs, Bool.false_and, Bool.or_false]
      cases hd : r.direct with
      | true =>
        refine hblends _ rfl (List.map_congr_left fun b hb => ?_)
        rw [hflag b hb, hdirect, hd, Bool.not_true, Bool.or_false, ite_self]
        split <;> rfl
      | false =>
        refine hblends _ rfl ((List.map_map ..).trans (List.map_congr_left fun b hb => ?_))
        rw [hflag b hb, hdirect, hd, Bool.not_false, Bool.or_true]
        dsimp only [Function.comp]
        by_cases hs : b.2.serial = n
        · simp [hs]
        · simp [hs]

end blend

end marks

/-! ## What a command's argument must be -/

/-- The key of an argument is a C or B key with a serial in range. -/
def MarkKeyOk (k : RawKey) : Prop := (k.kind = 1 ∨ k.kind = 2) ∧ 1 ≤ k.serial ∧ k.serial ≤ 268435455

section arguments

variable {l : Lineage} {release : Bool}

theorem serialOk_iff (n : Nat) : serialOk n = true ↔ 1 ≤ n ∧ n ≤ 268435455 := by
  unfold serialOk
  rw [Bool.and_eq_true, decide_eq_true_iff, decide_eq_true_iff]
  rfl

theorem rawKey_toRecordKey (k : RawKey) : k.toRecordKey =
    if k.kind = 1 then (if serialOk k.serial = true then some (.coll k.serial) else none)
    else if k.kind = 2 then (if serialOk k.serial = true then some (.blend k.serial) else none)
    else none := by
  unfold RawKey.toRecordKey RawKey.toKey
  by_cases h1 : k.kind = 1
  · by_cases hs : serialOk k.serial = true <;> simp [h1, hs]
  · by_cases h2 : k.kind = 2
    · by_cases hs : serialOk k.serial = true <;> simp [h2, hs]
    · by_cases h0 : k.kind = 0
      · by_cases hs : k.serial = 0 <;> simp [h0, hs]
      · simp [h0, h1, h2]

/-- What an argument names is there (R122 to R124). -/
def Lineage.Accepts (l : Lineage) (release : Bool) : MarkArg → Prop
  | .key k => MarkKeyOk k ∧ ((k.kind = 1 ∧ ∃ c ∈ l.colls, c.2.serial = k.serial) ∨
      (k.kind = 2 ∧ ∃ b ∈ l.blends, b.2.serial = k.serial))
  | .sample n => ∃ c ∈ l.colls, c.2.namedBy (.sample n) = true
  | .farm n => n ≤ 16777215 ∧ (n ∈ l.farms ∨ (release = false ∧ l.farms.length < 16) ∨
      (release = true ∧ ∃ c ∈ l.colls, c.2.namedBy (.farm n) = true))

/-- A refusal: nothing marked. -/
def Marked.refusal (l : Lineage) (r : Status) : Marked := { lin := l, result := r }

theorem marks_badKey {k : RawKey} (h : ¬ MarkKeyOk k) : l.marks release (.key k) = .refusal l .badArgument := by
  have hnone : k.toRecordKey = none := by
    rw [rawKey_toRecordKey]
    by_cases h1 : k.kind = 1
    · rw [if_pos h1]
      exact if_neg fun hs => h ⟨.inl h1, (serialOk_iff _).mp hs⟩
    · rw [if_neg h1]
      by_cases h2 : k.kind = 2
      · rw [if_pos h2]
        exact if_neg fun hs => h ⟨.inr h2, (serialOk_iff _).mp hs⟩
      · exact if_neg h2
  simp only [Lineage.marks, hnone]
  rfl

theorem resident_coll_iff (l : Lineage) (n : Nat) : l.resident (.coll n) = true ↔ ∃ c ∈ l.colls, c.2.serial = n := by
  change (l.colls.find? _).isSome = true ↔ _
  rw [List.find?_isSome]
  simp only [beq_iff_eq]

theorem findBlend_none_iff (l : Lineage) (n : Nat) : l.findBlend n = none ↔ ∀ b ∈ l.blends, b.2.serial ≠ n := by
  unfold Lineage.findBlend
  rw [List.find?_eq_none]
  simp only [beq_iff_eq, ne_eq]

section key

variable {k : RawKey} (hk : MarkKeyOk k)
include hk

theorem marks_collKey (h1 : k.kind = 1) : l.marks release (.key k) =
    if l.resident (.coll k.serial) = true then l.markWhere (!release) (fun r => r.serial == k.serial)
    else .refusal l .notResident := by
  have hkey : k.toRecordKey = some (.coll k.serial) := by
    rw [rawKey_toRecordKey, if_pos h1, if_pos ((serialOk_iff _).mpr hk.2)]
  simp only [Lineage.marks, hkey]
  rfl

theorem marks_blendKey (h2 : k.kind = 2) : l.marks release (.key k) = l.markKey (!release) (.blend k.serial) := by
  have hkey : k.toRecordKey = some (.blend k.serial) := by
    rw [rawKey_toRecordKey, if_neg (by omega), if_pos h2, if_pos ((serialOk_iff _).mpr hk.2)]
  simp only [Lineage.marks, hkey]

theorem marks_keyNotFound (h : ¬ ((k.kind = 1 ∧ ∃ c ∈ l.colls, c.2.serial = k.serial) ∨
    (k.kind = 2 ∧ ∃ b ∈ l.blends, b.2.serial = k.serial))) :
    l.marks release (.key k) = .refusal l .notResident := by
  obtain ⟨hno1, hno2⟩ := not_or.mp h
  rcases hk.1 with h1 | h2
  · rw [marks_collKey hk h1]
    exact if_neg fun hr => hno1 ⟨h1, (resident_coll_iff _ _).mp hr⟩
  · have hnone : l.findBlend k.serial = none :=
      (findBlend_none_iff _ _).mpr fun b hb e => hno2 ⟨h2, b, hb, e⟩
    rw [marks_blendKey hk h2]
    simp only [Lineage.markKey, hnone]
    rfl

theorem marks_keyFound (hn : l.blendSerials.Nodup) (h : (k.kind = 1 ∧ ∃ c ∈ l.colls, c.2.serial = k.serial) ∨
    (k.kind = 2 ∧ ∃ b ∈ l.blends, b.2.serial = k.serial)) :
    Marks l release (.key k) (l.marks release (.key k)) := by
  have heta : k = ⟨k.kind, k.serial⟩ := rfl
  rcases h with ⟨h1, hc⟩ | ⟨h2, b, hb, hs⟩
  · rw [marks_collKey hk h1, if_pos ((resident_coll_iff _ _).mpr hc)]
    refine Lineage.markWhere_marks l.farms (by cases release <;> rfl) (fun r => ?_) fun b => ?_
    · unfold CollRec.namedBy
      rw [heta, h1, Bool.eq_iff_iff, beq_iff_eq, beq_iff_eq]
      exact ⟨fun e => by rw [e], fun e => by injection e with _ e; exact e.symm⟩
    · refine beq_eq_false_iff_ne.mpr fun e => ?_
      injection e with e
      rw [e] at h1
      cases h1
  · obtain ⟨p, hp⟩ : ∃ p, l.findBlend k.serial = some p :=
      Option.ne_none_iff_exists'.mp fun e => (findBlend_none_iff _ _).mp e b hb hs
    rw [marks_blendKey hk h2, heta, h2]
    exact Lineage.markBlend_marks hn hp

end key

theorem collsWhere_isEmpty (l : Lineage) (p : CollRec → Bool) :
    (l.collsWhere p).isEmpty = true ↔ ∀ c ∈ l.colls, p c.2 = false := by
  unfold Lineage.collsWhere
  rw [List.isEmpty_iff, List.filter_eq_nil_iff]
  refine ⟨fun h c hc => by simpa using h c.2 (List.mem_map_of_mem hc), fun h r hr => ?_⟩
  obtain ⟨c, hc, rfl⟩ := List.mem_map.mp hr
  simp [h c hc]

theorem CollRec.hasSample_eq (r : CollRec) (n : Nat) : r.hasSample n = r.namedBy (.sample n) := by
  unfold CollRec.hasSample CollRec.namedBy
  cases r.info <;> rfl

theorem CollRec.hasFarm_eq (r : CollRec) (n : Nat) : r.hasFarm n = r.namedBy (.farm n) := by
  unfold CollRec.hasFarm CollRec.namedBy
  cases r.info <;> rfl

theorem marks_sampleNotFound {n : Nat} (h : ∀ c ∈ l.colls, c.2.namedBy (.sample n) = false) :
    l.marks release (.sample n) = .refusal l .notResident := by
  have := (collsWhere_isEmpty l (fun r => r.hasSample n)).mpr fun c hc => (c.2.hasSample_eq n).trans (h c hc)
  exact if_pos this

theorem marks_sampleFound {n : Nat} (h : ∃ c ∈ l.colls, c.2.namedBy (.sample n) = true) :
    Marks l release (.sample n) (l.marks release (.sample n)) := by
  have hne : ¬ (l.collsWhere (fun r => r.hasSample n)).isEmpty = true := fun e => by
    obtain ⟨c, hc, hs⟩ := h
    have := (collsWhere_isEmpty l (fun r => r.hasSample n)).mp e c hc
    rw [c.2.hasSample_eq, hs] at this
    cases this
  have hm : l.marks release (.sample n) = l.markWhere (!release) (fun r => r.hasSample n) := if_neg hne
  rw [hm]
  exact Lineage.markWhere_marks l.farms (by cases release <;> rfl) (fun r => r.hasSample_eq n) fun b => rfl

section farm

variable {n : Nat}

theorem marks_farmBad (h : 16777215 < n) : l.marks release (.farm n) = .refusal l .badArgument := if_pos h

theorem marks_suspectFarm (h : n ≤ 16777215) : l.marks false (.farm n) = l.suspectFarm n :=
  (if_neg (Nat.not_lt.mpr h)).trans (if_neg Bool.false_ne_true)

theorem marks_releaseFarm (h : n ≤ 16777215) : l.marks true (.farm n) = l.releaseFarm n :=
  (if_neg (Nat.not_lt.mpr h)).trans (if_pos rfl)

theorem marks_farmFull (h : n ≤ 16777215) (hn : n ∉ l.farms) (hf : 16 ≤ l.farms.length) :
    l.marks false (.farm n) = .refusal l .listFull := by
  rw [marks_suspectFarm h]
  exact (if_neg (by simpa using hn)).trans (if_pos hf)

theorem marks_farmNotFound (h : n ≤ 16777215) (hn : n ∉ l.farms) (hc : ∀ c ∈ l.colls, c.2.namedBy (.farm n) = false) :
    l.marks true (.farm n) = .refusal l .notResident := by
  have he := (collsWhere_isEmpty l (fun r => r.hasFarm n)).mpr fun c hm => (c.2.hasFarm_eq n).trans (hc c hm)
  rw [marks_releaseFarm h]
  exact if_neg (by simp [hn, he])

theorem marks_farmFound (h : n ≤ 16777215) (hf : n ∈ l.farms ∨ (release = false ∧ l.farms.length < 16) ∨
    (release = true ∧ ∃ c ∈ l.colls, c.2.namedBy (.farm n) = true)) :
    Marks l release (.farm n) (l.marks release (.farm n)) := by
  have hnamed := fun r : CollRec => r.hasFarm_eq n
  cases release with
  | false =>
    rw [marks_suspectFarm h]
    by_cases hm : n ∈ l.farms
    · have hs : l.suspectFarm n = l.markWhere true (fun r => r.hasFarm n) := if_pos (by simpa using hm)
      rw [hs]
      exact Lineage.markWhere_marks (release := false) l.farms (if_pos (by simpa using hm)).symm hnamed fun b => rfl
    · have hlen : ¬ Config.farmListMax ≤ l.farms.length := by
        obtain hf | ⟨_, hf⟩ | ⟨hf, _⟩ := hf
        · exact absurd hf hm
        · exact Nat.not_le.mpr hf
        · cases hf
      have hs : l.suspectFarm n = ({ l with farms := l.farms ++ [n] } : Lineage).markWhere true (fun r => r.hasFarm n) :=
        (if_neg (by simpa using hm)).trans (if_neg hlen)
      rw [hs]
      exact Lineage.markWhere_marks (release := false) (l.farms ++ [n]) (if_neg (by simpa using hm)).symm hnamed fun b => rfl
  | true =>
    rw [marks_releaseFarm h]
    have hcond : (l.farms.contains n || !(l.collsWhere (fun r => r.hasFarm n)).isEmpty) = true := by
      rw [Bool.or_eq_true]
      obtain hf | ⟨hf, _⟩ | ⟨_, c, hc, hf⟩ := hf
      · exact .inl (by simpa using hf)
      · cases hf
      · refine .inr (Bool.not_eq_true' _ ▸ Bool.eq_false_iff.mpr fun e => ?_)
        have := (collsWhere_isEmpty l (fun r => r.hasFarm n)).mp e c hc
        rw [hnamed, hf] at this
        cases this
    have hs : l.releaseFarm n =
        ({ l with farms := l.farms.filter (· != n) } : Lineage).markWhere false (fun r => r.hasFarm n) := if_pos hcond
    rw [hs]
    exact Lineage.markWhere_marks (release := true) _ rfl hnamed fun b => rfl

end farm

/-- An argument that is accepted marks what it names. -/
theorem Lineage.marks_accepted {arg : MarkArg} (hn : l.blendSerials.Nodup) (h : l.Accepts release arg) :
    Marks l release arg (l.marks release arg) := by
  cases arg with
  | key k => exact marks_keyFound h.1 hn h.2
  | sample n => exact marks_sampleFound h
  | farm n => exact marks_farmFound h.1 h.2

end arguments

end Sys2Proof.Machine

/-! The suspect commands, O59: the re-derivation and the records (R127), and the obligation. -/

namespace Sys2Proof.Machine

open Sys2Proof

/-! ## Batches re-derived -/

/-- A batch with the flag of its list. -/
def Batch.rederived (l : Lineage) (b : Batch) : Batch := { b with suspect := l.listSuspect (keysOf b.list) }

section batches

variable (l : Lineage)

theorem Lineage.rederiveBatches_filler {f : Nat} (hf : f < 8) : l.rederiveBatches.filler f =
    { l.filler f with ring := (l.filler f).ring.map (Batch.rederived l) } := by
  unfold Lineage.rederiveBatches Lineage.filler
  exact vget_map (h := hf) ..

theorem Lineage.allBatches_eq : l.allBatches = (List.range 8).flatMap (fun f => (l.filler f).ring) := by
  have hlist : l.fillers.toList = (List.range 8).map l.filler := by
    refine List.ext_getElem (by simp) fun i hi _ => ?_
    have hi8 : i < 8 := by simpa using hi
    rw [List.getElem_map, List.getElem_range, Lineage.filler, vget_lt _ _ _ hi8, Vector.getElem_toList]
  unfold Lineage.allBatches
  rw [hlist, List.flatMap_map]

theorem Lineage.rederiveBatches_allBatches : l.rederiveBatches.allBatches = l.allBatches.map (Batch.rederived l) := by
  unfold Lineage.allBatches Lineage.rederiveBatches
  rw [Vector.toList_map, List.flatMap_map, List.map_flatMap]
  rfl

theorem batchChanges_map (bs : List Batch) : batchChanges bs (bs.map (Batch.rederived l)) =
    bs.filterMap (fun b => if b.suspect = l.listSuspect (keysOf b.list) then none else some (b.rederived l)) := by
  induction bs with
  | nil => rfl
  | cons b bs ih =>
    unfold batchChanges at ih ⊢
    rw [List.map_cons, List.zip_cons_cons, List.filterMap_cons]
    by_cases h : b.suspect = l.listSuspect (keysOf b.list)
    · have hself : (b.suspect != (b.rederived l).suspect) = false := by
        rw [h]
        exact bne_self_eq_false _
      rw [List.filter_cons_of_neg (by rw [hself]; exact Bool.false_ne_true), ih, if_pos h]
    · rw [List.filter_cons_of_pos (by simpa [Batch.rederived] using h), List.map_cons, ih, if_neg h]

theorem Lineage.batchChanges_eq : batchChanges l.allBatches l.rederiveBatches.allBatches =
    (List.range 8).flatMap (fun f => (l.filler f).ring.filterMap (fun b =>
      if b.suspect = l.listSuspect (keysOf b.list) then none else some (b.rederived l))) := by
  rw [l.rederiveBatches_allBatches, batchChanges_map, l.allBatches_eq, List.filterMap_flatMap]

end batches

/-! ## Vessels re-derived -/

/-- A vessel with the flag of its list or of its ring. -/
def Vessel.rederived (l : Lineage) (x : Vessel) : Vessel := { x with
  suspect := match x.kind with
    | .store => l.listSuspect (keysOf x.list)
    | .bay => l.ringSuspect (l.ring x.bayIndex)
    | _ => x.suspect }

/-- Every batch has the flag of its list. -/
def Lineage.BatchesFresh (l : Lineage) : Prop :=
  ∀ f, f < 8 → ∀ b ∈ (l.filler f).ring, b.rederived l = b

section vessels

variable {l : Lineage}

theorem Lineage.rederiveBatches_fresh (l : Lineage) : l.rederiveBatches.BatchesFresh := fun f hf b hb => by
  rw [l.rederiveBatches_filler hf] at hb
  obtain ⟨c, _, rfl⟩ := List.mem_map.mp hb
  rfl

theorem Filler.modifyOpen_self {x : Filler} {g : Batch → Batch} (h : ∀ b ∈ x.ring, g b = b) : x.modifyOpen g = x := by
  by_cases ho : x.state = .batchOpen
  · rcases List.eq_nil_or_concat x.ring with hr | ⟨older, b, hr⟩
    · unfold Filler.modifyOpen
      rw [if_pos (beq_iff_eq.mpr ho), hr]
      change ({ x with ring := [] } : Filler) = x
      rw [← hr]
    · rw [List.concat_eq_append] at hr
      rw [Filler.modifyOpen_of_open g ho hr, h b (hr ▸ List.mem_append_right _ List.mem_cons_self), ← hr]
  · exact Filler.modifyOpen_of_not_open g ho

theorem Lineage.setFiller_self (l : Lineage) (f : Nat) : l.setFiller f (l.filler f) = l := by
  unfold Lineage.setFiller Lineage.filler
  rw [vset_vget_self]

theorem Lineage.rederive_fresh (hl : l.BatchesFresh) (v : Nat) :
    l.rederive v = l.setVessel v ((l.vessel v).rederived l) := by
  have hsame : (l.vessel v).kind ≠ .store → (l.vessel v).kind ≠ .bay →
      l.setVessel v ((l.vessel v).rederived l) = l := fun h1 h2 => by
    have hx : (l.vessel v).rederived l = l.vessel v := by
      unfold Vessel.rederived
      split
      · rename_i hk
        exact absurd hk h1
      · rename_i hk
        exact absurd hk h2
      · rfl
    rw [hx, Lineage.setVessel_self]
  cases hk : (l.vessel v).kind with
  | unconfigured =>
    rw [hsame (by rw [hk]; nofun) (by rw [hk]; nofun)]
    simp only [Lineage.rederive, hk]
  | filler =>
    rw [hsame (by rw [hk]; nofun) (by rw [hk]; nofun)]
    simp only [Lineage.rederive, hk]
    unfold Lineage.modifyOpenOf
    rw [Filler.modifyOpen_self, Lineage.setFiller_self]
    intro b hb
    by_cases h8 : (l.vessel v).fillerIndex < 8
    · exact hl _ h8 b hb
    · simp [Lineage.filler, vget, h8] at hb
  | store =>
    simp only [Lineage.rederive, hk, Vessel.rederived]
  | bay =>
    simp only [Lineage.rederive, hk, Vessel.rederived]

/-- The vessels re-derived up to a place, in turn. -/
theorem Lineage.rederiveVessels_upto (hl : l.BatchesFresh) (k : Nat) (hk : k ≤ 64) :
    ∃ m : Lineage, (List.range k).foldl Lineage.rederive l = m ∧ m = { l with vessels := m.vessels } ∧
      ∀ u, u < 64 → m.vessel u = if u < k then (l.vessel u).rederived l else l.vessel u := by
  induction k with
  | zero => exact ⟨l, rfl, rfl, fun u _ => by rw [if_neg (Nat.not_lt_zero u)]⟩
  | succ k ih =>
    obtain ⟨m, hm, hmo, hmv⟩ := ih (Nat.le_of_succ_le hk)
    have hfresh : m.BatchesFresh := by
      rw [hmo]
      exact hl
    have hsame : ∀ x : Vessel, x.rederived m = x.rederived l := fun x => by
      rw [hmo]
      rfl
    refine ⟨m.setVessel k ((l.vessel k).rederived l), ?_, ?_, fun u hu => ?_⟩
    · rw [List.range_succ, List.foldl_append, hm]
      change m.rederive k = _
      rw [Lineage.rederive_fresh hfresh, hmv k hk, if_neg (Nat.lt_irrefl k), hsame]
    · conv_lhs => rw [hmo]
      rfl
    · by_cases e : u = k
      · rw [e, Lineage.setVessel_same hk, if_pos (Nat.lt_succ_self k)]
      · rw [Lineage.setVessel_ne (Ne.symm e), hmv u hu]
        exact if_congr (by omega) rfl rfl

theorem Lineage.rederiveVessels_spec (hl : l.BatchesFresh) :
    l.rederiveVessels = { l with vessels := l.rederiveVessels.vessels } ∧
      ∀ u, u < 64 → l.rederiveVessels.vessel u = (l.vessel u).rederived l := by
  obtain ⟨m, hm, hmo, hmv⟩ := Lineage.rederiveVessels_upto hl 64 (Nat.le_refl 64)
  have he : l.rederiveVessels = m := hm
  rw [he]
  exact ⟨hmo, fun u hu => (hmv u hu).trans (if_pos hu)⟩

end vessels

/-! ## The operation -/

theorem State.writeFlags_eq (s : State) (tag : Nat) (bs : List Batch) :
    (s.writeFlags tag bs).lin = s.lin ∧ (s.writeFlags tag bs).hold = s.hold ∧
      (s.writeFlags tag bs).jrn = s.jrn.writeAll s.now tag
        (bs.map (fun b => .batchFlag b.suspect b (b.reason == .stillOpen))) := by
  induction bs generalizing s with
  | nil => exact ⟨rfl, rfl, rfl⟩
  | cons b bs ih => exact ih (s.write tag (.batchFlag b.suspect b (b.reason == .stillOpen)))

theorem TakenEntry.operation_mark {e : TakenEntry} {release : Bool} {arg : MarkArg}
    (hm : e.val.markOf = some (release, arg)) (s : State) : e.operation s = { st := s.opMark e.tag release arg } := by
  unfold EntryVal.markOf at hm
  split at hm
  case h_7 => cases hm
  all_goals
    rename_i hv
    obtain ⟨rfl, rfl⟩ := Prod.mk.inj (Option.some.inj hm)
    simp only [TakenEntry.operation, hv]

section refused

variable {s : State} {e : TakenEntry} {release : Bool} {arg : MarkArg}

/-- A command refused writes its record and changes nothing. -/
theorem exec_mark_refused (ht : Taken s e) (hm : e.val.markOf = some (release, arg)) {r : Status} (hr : r ≠ .done)
    (hmarks : s.lin.marks release arg = .refusal s.lin r) :
    ∃ t, exec e.val.row s = .next t ∧
      OpResult s t e.tag s.lin s.hold [.sweep release { arg := arg, result := r }] [] := by
  have hop : s.opMark e.tag release arg = s.write e.tag (.sweep release { arg := arg, result := r }) := by
    unfold State.opMark
    rw [hmarks]
    exact if_neg (by simpa [Marked.refusal] using hr)
  exact exec_row_of (o := { st := s.write e.tag (.sweep release { arg := arg, result := r }) }) ht rfl
    ((TakenEntry.operation_mark hm s).trans (by rw [hop])) rfl

end refused

/-! ## The sweep behind the marks -/

/-- The lineage state that a sweep leaves, with its passes. -/
structure SweptFrom (l : Lineage) (release : Bool) (arg : MarkArg) (k : Lineage) (n : Nat) : Prop where
  result : Lineage.passes (l.markedBy release arg).blends.length.succ (l.markedBy release arg) = (k, n + 1)
  last : Lineage.fullPass^[n + 1] (l.markedBy release arg) = Lineage.fullPass^[n] (l.markedBy release arg)
  rounds : k = Lineage.fullPass^[n + 1] (l.markedBy release arg)
  before : ∀ i, i < n →
    Lineage.fullPass^[i + 1] (l.markedBy release arg) ≠ Lineage.fullPass^[i] (l.markedBy release arg)
  bound : n ≤ l.blends.length
  others : k = { l.markedBy release arg with blends := k.blends }
  blends : k.blends = l.blends.map (fun b => (b.1, { b.2 with
    direct := b.2.directBy release arg
    derived := b.2.startFlag release arg || k.listSuspect (keysOf b.2.members) }))

theorem Lineage.sweptFrom (l : Lineage) (release : Bool) (arg : MarkArg) (hn : l.blendSerials.Nodup) :
    ∃ k n, SweptFrom l release arg k n := by
  have hlen : (l.markedBy release arg).blends.length = l.blends.length := List.length_map _
  have hserials : (l.markedBy release arg).blendSerials = l.blendSerials := List.map_map ..
  obtain ⟨n, hp, hbound, hlast, hbefore⟩ := Lineage.passes_eq (l.markedBy release arg).blends.length.succ
    (l := l.markedBy release arg) (hserials ▸ hn) (by omega)
  obtain ⟨hg, hc⟩ := (l.markedBy release arg).rounds_spec (n + 1)
  have hfix : (Lineage.fullPass^[n + 1] (l.markedBy release arg)).fullPass =
      Lineage.fullPass^[n + 1] (l.markedBy release arg) := by
    conv_lhs => rw [hlast]
    exact (Function.iterate_succ_apply' ..).symm
  exact ⟨_, n, {
    result := hp
    last := hlast
    rounds := rfl
    before := hbefore
    bound := by omega
    others := hg.others
    blends := (hg.fixpoint hc hfix).trans (List.map_map ..) }⟩

/-! ## A farm list does not bear on a sweep -/

/-- A farm list in place of another. -/
def Lineage.withFarms (l : Lineage) (farms : List Nat) : Lineage := { l with farms := farms }

theorem Lineage.passOver_withFarms (is : List Nat) (l : Lineage) (farms : List Nat) :
    (l.withFarms farms).passOver is = (l.passOver is).withFarms farms := by
  induction is generalizing l with
  | nil => rfl
  | cons i is ih => exact ih (l.visitAt i)

theorem Lineage.rounds_withFarms (n : Nat) (l : Lineage) (farms : List Nat) :
    Lineage.fullPass^[n] (l.withFarms farms) = (Lineage.fullPass^[n] l).withFarms farms := by
  induction n generalizing l with
  | zero => rfl
  | succ n ih =>
    have h : (l.withFarms farms).fullPass = l.fullPass.withFarms farms := Lineage.passOver_withFarms _ l farms
    rw [Function.iterate_succ_apply, Function.iterate_succ_apply, h, ih]

theorem Lineage.rounds_farms (n : Nat) (l : Lineage) : (Lineage.fullPass^[n] l).farms = l.farms := by
  rw [(l.rounds_spec n).1.others]

/-- The lineage state behind the command. -/
def Lineage.remarked (k : Lineage) : Lineage := k.rederiveBatches.rederiveVessels

section remarked

variable (k : Lineage)

theorem Lineage.remarked_eq : k.remarked =
    { k with fillers := k.rederiveBatches.fillers, vessels := k.remarked.vessels } :=
  (Lineage.rederiveVessels_spec k.rederiveBatches_fresh).1

theorem Lineage.remarked_listSuspect : k.remarked.listSuspect = k.listSuspect :=
  funext (Lineage.listSuspect_congr (by rw [k.remarked_eq]) (by rw [k.remarked_eq]))

theorem Lineage.remarked_ringSuspect : k.remarked.ringSuspect = k.ringSuspect :=
  funext (Lineage.ringSuspect_congr (by rw [k.remarked_eq]) (by rw [k.remarked_eq]))

theorem Lineage.remarked_filler {f : Nat} (hf : f < 8) : k.remarked.filler f =
    { k.filler f with ring := (k.filler f).ring.map (Batch.rederived k) } := by
  have hfillers : k.remarked.fillers = k.rederiveBatches.fillers := (congrArg Lineage.fillers k.remarked_eq :)
  rw [← k.rederiveBatches_filler hf, Lineage.filler, Lineage.filler, hfillers]

theorem Lineage.remarked_vessel {v : Nat} (hv : v < 64) : k.remarked.vessel v = (k.vessel v).rederived k :=
  (Lineage.rederiveVessels_spec k.rederiveBatches_fresh).2 v hv

end remarked

/-- The batches whose flag a sweep changed, as they stand after. -/
def Lineage.flipped (l k : Lineage) : List Batch :=
  (List.range 8).flatMap (fun f => (l.filler f).ring.filterMap (fun b =>
    if b.suspect = k.listSuspect (keysOf b.list) then none else some (b.rederived k)))

/-- The record of a sweep. -/
def Lineage.sweepReport (l : Lineage) (release : Bool) (arg : MarkArg) (k : Lineage) (passes : Nat) : SweepReport where
  arg := arg
  result := .done
  marks := (l.colls.filter (fun c => c.2.namedBy arg && c.2.mark == release)).length
  directChanged := l.blends.any (fun b => b.2.namedBy arg && b.2.direct == release)
  blendFlags := (l.blends.filter (fun b => b.2.derived !=
    (b.2.startFlag release arg || k.listSuspect (keysOf b.2.members)))).length
  passes := passes
  vessels := vesselChanges l k.remarked
  batches := (l.flipped k).length
  farms := k.remarked.farms.length

theorem blendChanges_map (g : BlendRec → BlendRec) (bs : List (Nat × BlendRec)) :
    blendChanges bs (bs.map (fun b => (b.1, g b.2))) =
      (bs.filter (fun b => b.2.derived != (g b.2).derived)).length := by
  unfold blendChanges
  induction bs with
  | nil => rfl
  | cons b bs ih =>
    rw [List.map_cons, List.zip_cons_cons]
    rw [List.filter_cons, List.filter_cons]
    dsimp only
    split
    · rw [List.length_cons, List.length_cons, ih]
    · exact ih

/-- A command accepted, in one equation. -/
theorem State.opMark_accepted (s : State) (tag : Nat) {release : Bool} {arg : MarkArg} {k : Lineage} {n : Nat}
    (hm : Marks s.lin release arg (s.lin.marks release arg)) (hk : SweptFrom s.lin release arg k n) :
    s.opMark tag release arg = ((s.setLin k.remarked).writeSweep tag release (s.lin.sweepReport release arg k (n + 1))).writeFlags
      tag (s.lin.flipped k) := by
  have hsweep : (s.lin.marks release arg).lin.sweep release (s.lin.marks release arg).direct = (k, n + 1) := by
    change Lineage.passes (((s.lin.marks release arg).start release).blends.length + 1)
      ((s.lin.marks release arg).start release) = _
    rw [hm.start]
    exact hk.result
  have hfillers : k.fillers = s.lin.fillers := by rw [hk.others]; rfl
  have hchanged : batchChanges k.allBatches k.rederiveBatches.allBatches = s.lin.flipped k := by
    rw [k.batchChanges_eq]
    unfold Lineage.flipped Lineage.filler
    rw [hfillers]
  have hflags : blendChanges s.lin.blends k.blends = _ := (congrArg _ hk.blends).trans
    (blendChanges_map (fun b => { b with
      direct := b.directBy release arg
      derived := b.startFlag release arg || k.listSuspect (keysOf b.members) }) _)
  unfold State.opMark
  dsimp only
  rw [if_pos (beq_iff_eq.mpr hm.result), hsweep]
  dsimp only
  rw [hchanged, hflags, hm.marks, hm.direct]
  rfl

end Sys2Proof.Machine

/-! The suspect commands: O59. -/

namespace Sys2Proof.Machine

open Sys2Proof

/-- The passes of a sweep, counted from a state that differs in its farm list. -/
theorem SweptFrom.counted {l k : Lineage} {release : Bool} {arg : MarkArg} {n : Nat} (h : SweptFrom l release arg k n)
    (farms : List Nat) : let start := (l.markedBy release arg).withFarms farms
    Lineage.fullPass^[n + 1] start = Lineage.fullPass^[n] start ∧
      (∀ i, i < n → Lineage.fullPass^[i + 1] start ≠ Lineage.fullPass^[i] start) ∧
      k.blends = (Lineage.fullPass^[n + 1] start).blends := by
  intro start
  have hrounds : ∀ i, Lineage.fullPass^[i] start =
      (Lineage.fullPass^[i] (l.markedBy release arg)).withFarms farms :=
    fun i => Lineage.rounds_withFarms i (l.markedBy release arg) farms
  refine ⟨by rw [hrounds, hrounds, h.last], fun i hi he => h.before i hi ?_, ?_⟩
  · rw [hrounds, hrounds] at he
    have hself : ∀ j, (Lineage.fullPass^[j] (l.markedBy release arg)) =
        ((Lineage.fullPass^[j] (l.markedBy release arg)).withFarms farms).withFarms (l.markedBy release arg).farms :=
      fun j => by
        rw [← Lineage.rounds_farms j (l.markedBy release arg)]
        rfl
    rw [hself (i + 1), he, ← hself]
  · rw [hrounds, h.rounds]
    rfl

theorem SweptFrom.frame {l k : Lineage} {release : Bool} {arg : MarkArg} {n : Nat} (h : SweptFrom l release arg k n)
    (fs : Vector Filler 8) (vs : Vector Vessel 64) : ({ k with fillers := fs, vessels := vs } : Lineage) =
      { l with colls := k.colls, blends := k.blends, farms := k.farms, fillers := fs, vessels := vs } := by
  rw [h.others]
  rfl

/-- The rounds of a sweep, each a visit to every place in turn. -/
theorem Lineage.rounds_eq_foldl (n : Nat) (l : Lineage) :
    (List.range n).foldl (fun x _ => (List.range x.blends.length).foldl Lineage.visitAt x) l = Lineage.fullPass^[n] l := by
  have h := List.foldl_const Lineage.fullPass l (List.range n)
  rw [List.length_range] at h
  exact h

theorem State.sweepRecords (s : State) (l : Lineage) (tag : Nat) (release : Bool) (r : SweepReport) (bs : List Batch) :
    let u := ((s.setLin l).writeSweep tag release r).writeFlags tag bs
    u.lin = l ∧ u.hold = s.hold ∧ u.jrn = s.jrn.writeAll s.now tag
      (.sweep release r :: bs.map (fun b => .batchFlag b.suspect b (b.reason == .stillOpen))) :=
  State.writeFlags_eq ((s.setLin l).writeSweep tag release r) tag bs

/-- The row of a command accepted. -/
theorem exec_mark_accepted {s : State} {e : TakenEntry} {release : Bool} {arg : MarkArg} {l : Lineage} {r : SweepReport}
    {bs : List Batch} (ht : Taken s e) (he : e.val.markOf = some (release, arg))
    (hop : s.opMark e.tag release arg = ((s.setLin l).writeSweep e.tag release r).writeFlags e.tag bs) :
    ∃ t, exec e.val.row s = .next t ∧ OpResult s t e.tag l s.hold
      (.sweep release r :: bs.map (fun b => .batchFlag b.suspect b (b.reason == .stillOpen))) [] := by
  obtain ⟨hl, hh, hj⟩ := s.sweepRecords l e.tag release r bs
  rw [← hop] at hl hh hj
  obtain ⟨t, hx, hr⟩ := exec_row_of ht rfl (TakenEntry.operation_mark he s) hj
  refine ⟨t, hx, ?_⟩
  rw [hl, hh] at hr
  exact hr

/-- Settles O59: a refused argument marks nothing; an accepted one is the marks, the passes and the re-derivation in
one equation, read part by part. -/
theorem suspectCommandsMarkAndSweep : Obligations.SuspectCommandsMarkAndSweep := by
  intro s e release arg ht he keyOk found sampled farmed refused accepted
  have hsampled : ∀ (r : CollRec) n, sampled r n ↔ r.namedBy (.sample n) = true := fun r n => by
    simp [sampled, CollRec.namedBy, Option.any_eq_true]
  have hfarmed : ∀ (r : CollRec) n, farmed r n ↔ r.namedBy (.farm n) = true := fun r n => by
    simp [farmed, CollRec.namedBy, Option.any_eq_true]
  have hrefused : ∀ r, r ≠ .done → s.lin.marks release arg = .refusal s.lin r → refused r := fun r hr hm =>
    exec_mark_refused ht he hr hm
  refine ⟨fun k ha hk => ?_, fun k ha hk hf => ?_, fun n ha hn => ?_, fun n ha hn => ?_, fun n ha hn hm => ⟨?_, ?_⟩,
    fun hnodup hacc => ?_⟩
  · subst ha
    exact hrefused _ nofun (marks_badKey hk)
  · subst ha
    exact hrefused _ nofun (marks_keyNotFound hk hf)
  · subst ha
    exact hrefused _ nofun (marks_sampleNotFound fun c hc => Bool.eq_false_iff.mpr fun h => hn c hc ((hsampled _ _).mpr h))
  · subst ha
    exact hrefused _ nofun (marks_farmBad hn)
  · intro hr hlen
    subst ha hr
    exact hrefused _ nofun (marks_farmFull hn hm hlen)
  · intro hr hc
    subst ha hr
    exact hrefused _ nofun (marks_farmNotFound hn hm fun c hm => Bool.eq_false_iff.mpr fun h => hc c hm ((hfarmed _ _).mpr h))
  · have haccepts : s.lin.Accepts release arg := by
      cases arg with
      | key k => exact hacc
      | sample n =>
        obtain ⟨c, hc, hs⟩ := hacc
        exact ⟨c, hc, (hsampled _ _).mp hs⟩
      | farm n =>
        exact ⟨hacc.1, hacc.2.imp_right fun h => h.imp_right fun ⟨hr, c, hc, hf⟩ => ⟨hr, c, hc, (hfarmed _ _).mp hf⟩⟩
    have hm := Lineage.marks_accepted hnodup haccepts
    obtain ⟨k, n, hk⟩ := s.lin.sweptFrom release arg hnodup
    obtain ⟨t, hx, hr⟩ := exec_mark_accepted ht he (s.opMark_accepted e.tag hm hk)
    refine ⟨t, k.remarked, n + 1, hx, ?_⟩
    intro names named direct flag flipped
    have hls : k.remarked.listSuspect = k.listSuspect := k.remarked_listSuspect
    have hnames : ∀ r, names r = r.namedBy arg := fun r => by cases arg <;> rfl
    have hflag : ∀ b, flag b = (b.startFlag release arg || k.listSuspect (keysOf b.members)) := fun b => by
      rw [← hls]
      rfl
    have hflipped : flipped = s.lin.flipped k := by
      change List.flatMap _ _ = _
      rw [hls]
      rfl
    have hothers := hk.others
    obtain ⟨hkc, hkf, hkfil, hkves, hkrings⟩ : k.colls = (s.lin.markedBy release arg).colls ∧
        k.farms = farmsAfter s.lin.farms release arg ∧ k.fillers = s.lin.fillers ∧ k.vessels = s.lin.vessels ∧
        k.rings = s.lin.rings := by
      rw [hothers]
      exact ⟨rfl, rfl, rfl, rfl, rfl⟩
    obtain ⟨hrc, hrb, hrf⟩ : k.remarked.colls = k.colls ∧ k.remarked.blends = k.blends ∧ k.remarked.farms = k.farms := by
      rw [k.remarked_eq]
      exact ⟨rfl, rfl, rfl⟩
    refine ⟨?result, Nat.succ_pos n, Nat.succ_le_succ hk.bound, ?passes, ?colls, ?blends, ?farms, fun f hf => ?fillers,
      fun v hv => ?vessels, ?others⟩
    case result =>
      unfold Lineage.sweepReport vesselChanges at hr
      simp only [hnames, hflag, hflipped]
      exact hr
    case passes =>
      intro start visit after
      have hstart : start = (s.lin.markedBy release arg).withFarms s.lin.farms := by
        change ({ s.lin with colls := k.remarked.colls, blends := _ } : Lineage) = _
        rw [hrc, hkc]
        rfl
      have hafter : ∀ i, after i = Lineage.fullPass^[i] start := fun i => Lineage.rounds_eq_foldl i start
      obtain ⟨hlast, hbefore, hend⟩ := hk.counted s.lin.farms
      rw [hrb, hend, hafter (n + 1), hafter (n + 1 - 1), hstart, Nat.add_sub_cancel]
      refine ⟨hlast, fun i hi => ?_, rfl⟩
      rw [hafter, hafter, hstart]
      exact hbefore i (Nat.lt_of_succ_lt_succ hi)
    case colls =>
      rw [hrc, hkc]
      simp only [hnames]
      rfl
    case blends =>
      rw [hrb, hk.blends]
      simp only [hflag]
      rfl
    case farms =>
      rw [hrf, hkf]
      unfold farmsAfter
      rfl
    case fillers =>
      rw [k.remarked_filler hf, hls]
      unfold Lineage.filler
      rw [hkfil]
      rfl
    case vessels =>
      rw [k.remarked_vessel hv, hls, k.remarked_ringSuspect]
      unfold Vessel.rederived Lineage.vessel Lineage.ring
      rewrite [hkves, hkrings]
      rfl
    case others =>
      have hfillers : k.remarked.fillers = k.rederiveBatches.fillers := (congrArg Lineage.fillers k.remarked_eq :)
      rw [hrc, hrb, hrf, hfillers]
      exact k.remarked_eq.trans (hk.frame k.rederiveBatches.fillers k.remarked.vessels)

end Sys2Proof.Machine

/-! References (R52 to R54): the counts of the two tables against the keys that lists carry, as keys gain and lose
references. -/

namespace Sys2Proof.Machine

open Sys2Proof

/-! ## Tables by serial -/

section tables

variable {α : Type} (serial : α → Nat)

theorem find?_upd (f : α → α) (hf : ∀ a, serial (f a) = serial a) (n m : Nat) (xs : List (Nat × α)) :
    (xs.map (fun p => if serial p.2 == n then (p.1, f p.2) else p)).find? (fun p => serial p.2 == m) =
      (xs.find? (fun p => serial p.2 == m)).map (fun p => if m = n then (p.1, f p.2) else p) := by
  rw [List.find?_map]
  have hp : (fun p => serial p.2 == m) ∘ (fun p : Nat × α => if serial p.2 == n then (p.1, f p.2) else p) =
      fun p => serial p.2 == m := by
    funext p
    dsimp only [Function.comp]
    split
    · rw [hf]
    · rfl
  rw [hp]
  cases h : xs.find? (fun p => serial p.2 == m) with
  | none => rfl
  | some p =>
    have hm : serial p.2 = m := by simpa using List.find?_some h
    rw [Option.map_some, Option.map_some, hm]
    simp only [beq_iff_eq]

theorem find?_drop (n m : Nat) (xs : List (Nat × α)) :
    (xs.filter (fun p => serial p.2 != n)).find? (fun p => serial p.2 == m) =
      if m = n then none else xs.find? (fun p => serial p.2 == m) := by
  rw [List.find?_filter]
  by_cases h : m = n
  · rw [if_pos h, List.find?_eq_none]
    intro p _ hp
    obtain ⟨h1, h2⟩ := of_decide_eq_true hp
    exact absurd ((beq_iff_eq.mp h2).trans h) (by simpa using h1)
  · rw [if_neg h]
    refine List.find?_congr fun p _ => ?_
    rw [Bool.eq_iff_iff, decide_eq_true_iff, beq_iff_eq]
    exact and_iff_right_of_imp fun e => by simpa [e] using h

theorem insertLowest_cut (r : α) (i : Nat) (xs : List (Nat × α)) :
    ∃ a b j, xs = a ++ b ∧ insertLowest r i xs = a ++ (j, r) :: b := by
  induction xs generalizing i with
  | nil => exact ⟨[], [], i, rfl, rfl⟩
  | cons x xs ih =>
    obtain ⟨j, y⟩ := x
    rw [insertLowest]
    split
    · obtain ⟨a, b, k, hx, hi⟩ := ih (i + 1)
      exact ⟨(j, y) :: a, b, k, by rw [hx]; rfl, by rw [hi]; rfl⟩
    · exact ⟨[], (j, y) :: xs, i, rfl, rfl⟩

theorem find?_insertLowest (r : α) (i : Nat) (xs : List (Nat × α))
    (hfree : xs.find? (fun p => serial p.2 == serial r) = none) : ∃ j, ∀ m,
      (insertLowest r i xs).find? (fun p => serial p.2 == m) =
        if m = serial r then some (j, r) else xs.find? (fun p => serial p.2 == m) := by
  obtain ⟨a, b, j, hx, hi⟩ := insertLowest_cut r i xs
  refine ⟨j, fun m => ?_⟩
  rw [hx, List.find?_append, Option.or_eq_none_iff] at hfree
  rw [hi, hx, List.find?_append, List.find?_append, List.find?_cons]
  by_cases h : m = serial r
  · rw [if_pos h, h, hfree.1, beq_self_eq_true]
    rfl
  · rw [if_neg h, show (serial r == m) = false from beq_eq_false_iff_ne.mpr (Ne.symm h)]

end tables

/-! ## The count of a record -/

/-- The count of a key's record, where it has one. -/
def Lineage.refsOf (l : Lineage) : Key → Option Nat
  | .unknown => none
  | .coll n => (l.findColl n).map (fun p => p.2.refs)
  | .blend n => (l.findBlend n).map (fun p => p.2.refs)

/-- The keys of the members of every blend. -/
def Lineage.memberKeys (l : Lineage) : List Key := l.blends.flatMap (fun b => keysOf b.2.members)

section refs

variable (l : Lineage)

theorem Lineage.resident_iff (k : Key) : l.resident k = true ↔ l.refsOf k ≠ none := by
  cases k with
  | unknown => simp [Lineage.resident, Lineage.refsOf]
  | coll n => simp [Lineage.resident, Lineage.refsOf, Option.isSome_iff_ne_none]
  | blend n => simp [Lineage.resident, Lineage.refsOf, Option.isSome_iff_ne_none]

variable {l} in
theorem Lineage.refsOf_congr {k : Lineage} (hc : k.colls = l.colls) (hb : k.blends = l.blends) : k.refsOf = l.refsOf := by
  funext x
  cases x <;> simp only [Lineage.refsOf, Lineage.findColl, Lineage.findBlend, hc, hb]

/-- The collections with their serials, the blends with their serials and members: what an update keeps. -/
structure SameRecords (l k : Lineage) : Prop where
  collSerials : k.colls.map (fun c => c.2.serial) = l.colls.map (fun c => c.2.serial)
  blendSerials : k.blendSerials = l.blendSerials
  members : k.memberKeys = l.memberKeys

variable {l} in
theorem SameRecords.trans {k m : Lineage} (h : SameRecords l k) (g : SameRecords k m) : SameRecords l m :=
  ⟨g.1.trans h.1, g.2.trans h.2, g.3.trans h.3⟩

theorem Lineage.refsOf_updColl {f : CollRec → CollRec} (hf : ∀ r, (f r).serial = r.serial) (n : Nat) {g : Nat → Nat}
    (hg : ∀ r, (f r).refs = g r.refs) (k : Key) :
    (l.updColl n f).refsOf k = if k = .coll n then (l.refsOf k).map g else l.refsOf k := by
  cases k with
  | unknown => rfl
  | blend m => rfl
  | coll m =>
    have h := find?_upd CollRec.serial f hf n m l.colls
    change ((List.find? _ (l.colls.map _)).map _ : Option Nat) = _
    rw [h, Option.map_map]
    by_cases e : m = n
    · rw [if_pos (congrArg Key.coll e), Lineage.refsOf, Option.map_map]
      refine Option.map_congr fun p _ => ?_
      dsimp only [Function.comp]
      rw [if_pos e, hg]
    · rw [if_neg (by simpa using e)]
      refine Option.map_congr fun p _ => ?_
      dsimp only [Function.comp]
      rw [if_neg e]

theorem Lineage.refsOf_updBlend {f : BlendRec → BlendRec} (hf : ∀ r, (f r).serial = r.serial) (n : Nat) {g : Nat → Nat}
    (hg : ∀ r, (f r).refs = g r.refs) (k : Key) :
    (l.updBlend n f).refsOf k = if k = .blend n then (l.refsOf k).map g else l.refsOf k := by
  cases k with
  | unknown => rfl
  | coll m => rfl
  | blend m =>
    have h := find?_upd BlendRec.serial f hf n m l.blends
    change ((List.find? _ (l.blends.map _)).map _ : Option Nat) = _
    rw [h, Option.map_map]
    by_cases e : m = n
    · rw [if_pos (congrArg Key.blend e), Lineage.refsOf, Option.map_map]
      refine Option.map_congr fun p _ => ?_
      dsimp only [Function.comp]
      rw [if_pos e, hg]
    · rw [if_neg (by simpa using e)]
      refine Option.map_congr fun p _ => ?_
      dsimp only [Function.comp]
      rw [if_neg e]

theorem Lineage.updColl_sameRecords {f : CollRec → CollRec} (hf : ∀ r, (f r).serial = r.serial) (n : Nat) :
    SameRecords l (l.updColl n f) := by
  refine ⟨?_, rfl, rfl⟩
  change (l.colls.map _).map _ = _
  rw [List.map_map]
  refine List.map_congr_left fun c _ => ?_
  dsimp only [Function.comp]
  split
  · exact hf _
  · rfl

theorem Lineage.updBlend_sameRecords {f : BlendRec → BlendRec} (hf : ∀ r, (f r).serial = r.serial)
    (hm : ∀ r, (f r).members = r.members) (n : Nat) : SameRecords l (l.updBlend n f) := by
  refine ⟨rfl, ?_, ?_⟩
  · change (l.blends.map _).map _ = _
    rw [List.map_map]
    refine List.map_congr_left fun c _ => ?_
    dsimp only [Function.comp]
    split
    · exact hf _
    · rfl
  · change (l.blends.map _).flatMap _ = _
    rw [List.flatMap_map]
    refine List.flatMap_congr fun c _ => ?_
    split
    · rw [hm]
    · rfl

/-! ## A key gains a reference -/

theorem Lineage.refsOf_addRef (k j : Key) :
    (l.addRef k).refsOf j = if j = k then (l.refsOf j).map (· + 1) else l.refsOf j := by
  cases k with
  | unknown =>
    split
    · rename_i h
      rw [h]
      rfl
    · rfl
  | coll n => exact l.refsOf_updColl (f := fun r => { r with refs := r.refs + 1 }) (fun _ => rfl) n (fun _ => rfl) j
  | blend n => exact l.refsOf_updBlend (f := fun r => { r with refs := r.refs + 1 }) (fun _ => rfl) n (fun _ => rfl) j

theorem Lineage.addRef_sameRecords (k : Key) : SameRecords l (l.addRef k) := by
  cases k with
  | unknown => exact ⟨rfl, rfl, rfl⟩
  | coll n => exact l.updColl_sameRecords (f := fun r => { r with refs := r.refs + 1 }) (fun _ => rfl) n
  | blend n => exact l.updBlend_sameRecords (f := fun r => { r with refs := r.refs + 1 }) (fun _ => rfl) (fun _ => rfl) n

theorem Lineage.addRefs_sameRecords (ks : List Key) : SameRecords l (l.addRefs ks) := by
  induction ks generalizing l with
  | nil => exact ⟨rfl, rfl, rfl⟩
  | cons k ks ih => exact (l.addRef_sameRecords k).trans (ih _)

theorem Lineage.refsOf_addRefs (ks : List Key) (j : Key) :
    (l.addRefs ks).refsOf j = (l.refsOf j).map (· + ks.count j) := by
  induction ks generalizing l with
  | nil =>
    change l.refsOf j = _
    cases l.refsOf j <;> rfl
  | cons k ks ih =>
    change ((l.addRef k).addRefs ks).refsOf j = _
    rw [ih, l.refsOf_addRef, List.count_cons]
    by_cases h : j = k
    · rw [if_pos h, Option.map_map, if_pos (beq_iff_eq.mpr h.symm)]
      refine Option.map_congr fun n _ => ?_
      dsimp only [Function.comp]
      omega
    · rw [if_neg h, if_neg (by simpa using Ne.symm h)]
      rfl

/-! ## A key's record is freed -/

theorem Lineage.refsOf_dropColl (n : Nat) (k : Key) :
    (l.dropColl n).refsOf k = if k = .coll n then none else l.refsOf k := by
  cases k with
  | unknown => rfl
  | blend m => rfl
  | coll m =>
    have h := find?_drop CollRec.serial n m l.colls
    change ((List.find? _ (l.colls.filter _)).map _ : Option Nat) = _
    rw [h]
    by_cases e : m = n
    · rw [if_pos e, if_pos (congrArg Key.coll e)]
      rfl
    · rw [if_neg e, if_neg (by simpa using e)]
      rfl

theorem Lineage.refsOf_dropBlend (n : Nat) (k : Key) :
    (l.dropBlend n).refsOf k = if k = .blend n then none else l.refsOf k := by
  cases k with
  | unknown => rfl
  | coll m => rfl
  | blend m =>
    have h := find?_drop BlendRec.serial n m l.blends
    change ((List.find? _ (l.blends.filter _)).map _ : Option Nat) = _
    rw [h]
    by_cases e : m = n
    · rw [if_pos e, if_pos (congrArg Key.blend e)]
      rfl
    · rw [if_neg e, if_neg (by simpa using e)]
      rfl

/-- The members of a blend freed no longer count as members. -/
theorem memberKeys_drop {xs : List (Nat × BlendRec)} (hn : (xs.map (fun b => b.2.serial)).Nodup) {n : Nat}
    {p : Nat × BlendRec} (hp : xs.find? (fun b => b.2.serial == n) = some p) (k : Key) :
    (xs.flatMap (fun b => keysOf b.2.members)).count k = (keysOf p.2.members).count k +
      ((xs.filter (fun b => b.2.serial != n)).flatMap (fun b => keysOf b.2.members)).count k := by
  induction xs with
  | nil => cases hp
  | cons x xs ih =>
    rw [List.map_cons, List.nodup_cons] at hn
    rw [List.find?_cons] at hp
    rw [List.flatMap_cons, List.count_append]
    by_cases h : x.2.serial = n
    · rw [beq_iff_eq.mpr h] at hp
      have hrest : xs.filter (fun b => b.2.serial != n) = xs := List.filter_eq_self.mpr fun b hb => by
        have : b.2.serial ≠ n := fun e => hn.1 (h ▸ e ▸ List.mem_map_of_mem (f := fun b => b.2.serial) hb)
        simpa using this
      rw [List.filter_cons_of_neg (by simp [h]), hrest, Option.some.inj hp]
    · rw [beq_eq_false_iff_ne.mpr h] at hp
      rw [List.filter_cons_of_pos (by simpa using h), List.flatMap_cons, List.count_append, ih hn.2 hp]
      omega

end refs

/-! ## Counts against keys -/

/-- The tables against the keys held outside the tables: a record counts the keys that lists carry, but for the
references still to be gained, and a key listed has its record. -/
structure Tallied (l : Lineage) (held owed : List Key) : Prop where
  collSerials : (l.colls.map (fun c => c.2.serial)).Nodup
  blendSerials : l.blendSerials.Nodup
  counted : ∀ k r, l.refsOf k = some r → r + owed.count k = (held ++ l.memberKeys).count k
  listed : ∀ k, k ≠ .unknown → l.refsOf k = none → (held ++ l.memberKeys).count k = 0

/-- No record stands at 0. -/
def Lineage.Positive (l : Lineage) : Prop := ∀ k r, l.refsOf k = some r → 0 < r

section tallied

variable {l : Lineage} {held owed : List Key}

/-- The keys held count by their numbers alone; U-0 has no record. -/
theorem Tallied.congr (h : Tallied l held owed) {held' owed' : List Key}
    (hk : ∀ k, k ≠ .unknown → held'.count k + owed.count k = held.count k + owed'.count k)
    (hnone : ∀ k, k ≠ .unknown → l.refsOf k = none → held'.count k = 0) :
    Tallied l held' owed' := by
  refine ⟨h.collSerials, h.blendSerials, fun k r hr => ?_, fun k hu hr => ?_⟩
  · have hu : k ≠ .unknown := fun e => by
      rw [e] at hr
      cases hr
    have h1 := h.counted k r hr
    have h2 := hk k hu
    rw [List.count_append] at h1 ⊢
    omega
  · have h1 := h.listed k hu hr
    rw [List.count_append] at h1 ⊢
    have := hnone k hu hr
    omega

theorem Tallied.perm (h : Tallied l held owed) {held' : List Key}
    (hk : ∀ k, k ≠ .unknown → held'.count k = held.count k) : Tallied l held' owed :=
  h.congr (fun k hu => by rw [hk k hu]) fun k hu hr => by
    have := h.listed k hu hr
    rw [List.count_append] at this
    rw [hk k hu]
    omega

/-- The references owed are gained. -/
theorem Tallied.addRefs (h : Tallied l held owed) : Tallied (l.addRefs owed) held [] := by
  have hs := l.addRefs_sameRecords owed
  refine ⟨hs.collSerials ▸ h.collSerials, hs.blendSerials ▸ h.blendSerials, fun k r hr => ?_, fun k hu hr => ?_⟩
  · rw [l.refsOf_addRefs] at hr
    obtain ⟨n, hn, rfl⟩ := Option.map_eq_some_iff.mp hr
    rw [hs.members, ← h.counted k n hn]
    rfl
  · rw [l.refsOf_addRefs, Option.map_eq_none_iff] at hr
    rw [hs.members]
    exact h.listed k hu hr

/-! ## A key loses a reference -/

/-- What a release leaves: the rest of the keys tallied, no record at 0, the tables no longer. -/
structure Released (l m : Lineage) (held : List Key) : Prop where
  tallied : Tallied m held []
  positive : m.Positive
  blends : m.blends.length ≤ l.blends.length
  colls : m.colls.length ≤ l.colls.length

/-- A key listed has its record, which counts it. -/
theorem Tallied.head_refs {k : Key} (h : Tallied l (k :: held) []) (hu : k ≠ .unknown) :
    ∃ r, l.refsOf k = some r ∧ r = (held ++ l.memberKeys).count k + 1 := by
  cases hr : l.refsOf k with
  | none =>
    have := h.listed k hu hr
    rw [List.cons_append, List.count_cons_self] at this
    omega
  | some r =>
    have := h.counted k r hr
    rw [List.cons_append, List.count_cons_self] at this
    exact ⟨r, rfl, this⟩

theorem Tallied.tail_counted {k j : Key} (h : Tallied l (k :: held) []) {r : Nat} (hr : l.refsOf j = some r) (hj : j ≠ k) :
    r = (held ++ l.memberKeys).count j := by
  have := h.counted j r hr
  rw [List.cons_append, List.count_cons_of_ne (Ne.symm hj)] at this
  exact this

theorem Tallied.tail_listed {k j : Key} (h : Tallied l (k :: held) []) (hu : j ≠ .unknown) (hr : l.refsOf j = none) :
    (held ++ l.memberKeys).count j = 0 := by
  have := h.listed j hu hr
  rw [List.cons_append, List.count_cons] at this
  omega

theorem Tallied.uncount {k : Key} {m : Lineage} (h : Tallied l (k :: held) []) (hpos : l.Positive) (hs : SameRecords l m)
    (hu : k ≠ .unknown) (hcount : (held ++ l.memberKeys).count k ≠ 0)
    (hrefs : ∀ j, m.refsOf j = if j = k then (l.refsOf j).map (· - 1) else l.refsOf j) :
    Tallied m held [] ∧ m.Positive := by
  obtain ⟨r, hr, hrc⟩ := h.head_refs hu
  refine ⟨⟨hs.collSerials ▸ h.collSerials, hs.blendSerials ▸ h.blendSerials, fun j n hn => ?_, fun j hj hn => ?_⟩,
    fun j n hn => ?_⟩
  · rw [hrefs] at hn
    rw [hs.members]
    split at hn
    · rename_i e
      subst e
      rw [hr] at hn
      have : r - 1 = n := Option.some.inj hn
      change n = _
      omega
    · rename_i e
      exact h.tail_counted hn e
  · rw [hs.members]
    rw [hrefs] at hn
    split at hn
    · rename_i e
      subst e
      rw [hr] at hn
      cases hn
    · exact h.tail_listed hj hn
  · rw [hrefs] at hn
    split at hn
    · rename_i e
      subst e
      rw [hr] at hn
      have : r - 1 = n := Option.some.inj hn
      omega
    · exact hpos j n hn

theorem Tallied.release_unknown (h : Tallied l (.unknown :: held) []) (hpos : l.Positive) : Released l l held :=
  ⟨h.perm fun _ hu => (List.count_cons_of_ne (Ne.symm hu)).symm, hpos, Nat.le_refl _, Nat.le_refl _⟩

theorem Tallied.release_coll {n fuel : Nat} (h : Tallied l (.coll n :: held) []) (hpos : l.Positive) :
    Released l (Lineage.releaseKey (fuel + 1) (.coll n) l) held := by
  obtain ⟨r, hr, hrc⟩ := h.head_refs nofun
  obtain ⟨p, hp, hpr⟩ := Option.map_eq_some_iff.mp hr
  have hkey : Lineage.releaseKey (fuel + 1) (.coll n) l =
      if r ≤ 1 then l.dropColl n else l.updColl n (fun x => { x with refs := x.refs - 1 }) := by
    rw [Lineage.releaseKey, hp, ← hpr]
  rw [hkey]
  by_cases h1 : r ≤ 1
  · rw [if_pos h1]
    refine ⟨⟨h.collSerials.sublist (List.filter_sublist.map _), h.blendSerials, fun j m hm => ?_, fun j hj hm => ?_⟩,
      fun j m hm => ?_, Nat.le_refl _, List.length_filter_le _ _⟩
    · rw [l.refsOf_dropColl] at hm
      split at hm
      · cases hm
      · rename_i e
        exact h.tail_counted hm e
    · rw [l.refsOf_dropColl] at hm
      split at hm
      · rename_i e
        rw [e]
        change (held ++ l.memberKeys).count _ = 0
        omega
      · exact h.tail_listed hj hm
    · rw [l.refsOf_dropColl] at hm
      split at hm
      · cases hm
      · exact hpos j m hm
  · rw [if_neg h1]
    obtain ⟨ht, hp⟩ := h.uncount hpos (l.updColl_sameRecords (f := fun x => { x with refs := x.refs - 1 }) (fun _ => rfl) n)
      nofun (by omega) (l.refsOf_updColl (f := fun x => { x with refs := x.refs - 1 }) (g := (· - 1)) (fun _ => rfl) n (fun _ => rfl))
    exact ⟨ht, hp, Nat.le_refl _, (List.length_map _).le⟩

/-- The keys of a list released one after another, each with the fuel it is given. -/
theorem Tallied.release_fold {fuel : Nat}
    (hstep : ∀ (k : Key) (l : Lineage) (held : List Key), Tallied l (k :: held) [] → l.Positive →
      l.blends.length < fuel → Released l (Lineage.releaseKey fuel k l) held)
    (ks : List Key) (l : Lineage) (h : Tallied l (ks ++ held) []) (hpos : l.Positive) (hf : l.blends.length < fuel) :
    Released l (ks.foldl (fun acc m => Lineage.releaseKey fuel m acc) l) held := by
  induction ks generalizing l with
  | nil => exact ⟨h, hpos, Nat.le_refl _, Nat.le_refl _⟩
  | cons k ks ih =>
    obtain ⟨ht, hp, hb, hc⟩ := hstep k l (ks ++ held) h hpos hf
    obtain ⟨ht', hp', hb', hc'⟩ := ih _ ht hp (Nat.lt_of_le_of_lt hb hf)
    exact ⟨ht', hp', hb'.trans hb, hc'.trans hc⟩

theorem Tallied.release_key (fuel : Nat) (k : Key) (l : Lineage) (held : List Key) (h : Tallied l (k :: held) [])
    (hpos : l.Positive) (hf : l.blends.length < fuel) : Released l (Lineage.releaseKey fuel k l) held := by
  induction fuel generalizing k l held with
  | zero => exact absurd hf (Nat.not_lt_zero _)
  | succ fuel ih =>
    cases k with
    | unknown => exact h.release_unknown hpos
    | coll n => exact h.release_coll hpos
    | blend n =>
      obtain ⟨r, hr, hrc⟩ := h.head_refs nofun
      obtain ⟨p, hp, hpr⟩ := Option.map_eq_some_iff.mp hr
      have hkey : Lineage.releaseKey (fuel + 1) (.blend n) l = if r ≤ 1 then
          (keysOf p.2.members).foldl (fun acc m => Lineage.releaseKey fuel m acc) (l.dropBlend n)
          else l.updBlend n (fun x => { x with refs := x.refs - 1 }) := by
        rw [Lineage.releaseKey, hp, ← hpr]
      rw [hkey]
      by_cases h1 : r ≤ 1
      · rw [if_pos h1]
        have hcount := memberKeys_drop h.blendSerials hp
        have hmembers : ∀ j, (held ++ l.memberKeys).count j =
            (keysOf p.2.members ++ held ++ (l.dropBlend n).memberKeys).count j := fun j => by
          rw [List.count_append, List.count_append, List.count_append]
          have := hcount j
          change _ + (l.memberKeys).count j = _
          change l.memberKeys.count j = _ + (l.dropBlend n).memberKeys.count j at this
          omega
        have hlen : (l.dropBlend n).blends.length < l.blends.length := by
          refine List.length_filter_lt_length_iff_exists.mpr ⟨p, List.mem_of_find?_eq_some hp, ?_⟩
          have := List.find?_some hp
          simpa using this
        have ht : Tallied (l.dropBlend n) (keysOf p.2.members ++ held) [] := by
          refine ⟨h.collSerials, h.blendSerials.sublist (List.filter_sublist.map _), fun j m hm => ?_, fun j hj hm => ?_⟩
          · rw [l.refsOf_dropBlend] at hm
            rw [← hmembers]
            split at hm
            · cases hm
            · rename_i e
              exact h.tail_counted hm e
          · rw [l.refsOf_dropBlend] at hm
            rw [← hmembers]
            split at hm
            · rename_i e
              rw [e]
              omega
            · exact h.tail_listed hj hm
        have hp' : (l.dropBlend n).Positive := fun j m hm => by
          rw [l.refsOf_dropBlend] at hm
          split at hm
          · cases hm
          · exact hpos j m hm
        obtain ⟨ht', hpos', hb, hc⟩ := Tallied.release_fold ih (keysOf p.2.members) (l.dropBlend n) ht hp' (by omega)
        exact ⟨ht', hpos', by omega, hc⟩
      · rw [if_neg h1]
        obtain ⟨ht, hp⟩ := h.uncount hpos
          (l.updBlend_sameRecords (f := fun x => { x with refs := x.refs - 1 }) (fun _ => rfl) (fun _ => rfl) n)
          nofun (by omega) (l.refsOf_updBlend (f := fun x => { x with refs := x.refs - 1 }) (g := (· - 1)) (fun _ => rfl) n (fun _ => rfl))
        exact ⟨ht, hp, (List.length_map _).le, Nat.le_refl _⟩

/-- A list's keys released (R53, R54). -/
theorem Tallied.releaseAll (ks : List Key) (l : Lineage) (h : Tallied l (ks ++ held) []) (hpos : l.Positive) :
    Released l (l.releaseAll ks) held := by
  induction ks generalizing l with
  | nil => exact ⟨h, hpos, Nat.le_refl _, Nat.le_refl _⟩
  | cons k ks ih =>
    obtain ⟨ht, hp, hb, hc⟩ := Tallied.release_key (l.blends.length + 2) k l (ks ++ held) h hpos (by omega)
    obtain ⟨ht', hp', hb', hc'⟩ := ih _ ht hp
    exact ⟨ht', hp', hb'.trans hb, hc'.trans hc⟩

end tallied

end Sys2Proof.Machine

/-! New records (R45 to R50): a serial issued is of no record, and a record placed counts as the keys it brings. -/

namespace Sys2Proof.Machine

open Sys2Proof

/-! ## Serials issued -/

theorem nextSerial_range (c : Nat) : 1 ≤ nextSerial c ∧ nextSerial c ≤ 268435455 := by
  unfold nextSerial Config.serialMax
  split <;> omega

/-- A serial issued is not taken, wherever the counter stands. -/
theorem issueSerial_fresh (taken : Nat → Bool) (l : List Nat) (c : Nat) (hl : ∀ n, taken n = true → n ∈ l)
    (hlen : l.length < 268435455) : taken (issueSerial taken (l.length + 1) c) = false := by
  by_cases hc : taken c = true
  · by_cases hr : 1 ≤ c ∧ c ≤ 268435455
    · obtain ⟨_, _, h, _⟩ := issueSerial_firstFree taken l c hl hr hlen
      exact Bool.eq_false_iff.mpr h
    · obtain ⟨h1, h2⟩ := nextSerial_range c
      have hstep : issueSerial taken (l.length + 1) c = issueSerial taken l.length (nextSerial c) := if_pos hc
      have hstart : (nextSerial c - 1 + 0) % 268435455 + 1 = nextSerial c := by omega
      have h := issueSerial_search taken (nextSerial c) l.length 0
      rw [hstart] at h
      simp only [Nat.zero_add] at h
      rcases h with ⟨m, _, h3, h4, _⟩ | h
      · rw [hstep, h3]
        exact h4
      · exfalso
        have hsub : c :: (List.range l.length).map (fun j => (nextSerial c - 1 + j) % 268435455 + 1) ⊆ l := by
          refine List.cons_subset.mpr ⟨hl c hc, fun x hx => ?_⟩
          obtain ⟨j, hj, rfl⟩ := List.mem_map.mp hx
          exact hl _ (h j (List.mem_range.mp hj))
        have hnd : (c :: (List.range l.length).map (fun j => (nextSerial c - 1 + j) % 268435455 + 1)).Nodup := by
          refine List.nodup_cons.mpr ⟨fun hx => ?_, List.Nodup.map_on (fun i hi j hj hij => ?_) List.nodup_range⟩
          · obtain ⟨j, _, hj⟩ := List.mem_map.mp hx
            omega
          · have := List.mem_range.mp hi
            have := List.mem_range.mp hj
            omega
        have := (hnd.subperm hsub).length_le
        simp at this
  · rw [issueSerial_free (Bool.eq_false_iff.mpr hc)]
    exact Bool.eq_false_iff.mpr hc

section issue

variable {l : Lineage}

theorem refsOf_coll_mem {n : Nat} (h : l.refsOf (.coll n) ≠ none) : n ∈ l.colls.map (fun c => c.2.serial) := by
  obtain ⟨c, hc, hs⟩ := (resident_coll_iff l n).mp ((l.resident_iff _).mpr h)
  exact hs ▸ List.mem_map_of_mem (f := fun c => c.2.serial) hc

theorem Lineage.issueColl_free (h : l.colls.length ≤ 2048) : l.refsOf (.coll l.issueColl) = none := by
  have hfresh := issueSerial_fresh (fun n => l.resident (.coll n)) (l.colls.map (fun c => c.2.serial)) l.collNext
    (fun n hn => refsOf_coll_mem ((l.resident_iff _).mp hn)) (by rw [List.length_map]; omega)
  rw [List.length_map] at hfresh
  by_contra hne
  have := (l.resident_iff _).mpr hne
  rw [show l.resident (.coll l.issueColl) = false from hfresh] at this
  cases this

theorem refsOf_blend_mem {n : Nat} (h : l.refsOf (.blend n) ≠ none) : n ∈ l.blendSerials := by
  have hr : l.findBlend n ≠ none := fun e => h (by rw [Lineage.refsOf, e]; rfl)
  by_contra hn
  exact hr ((findBlend_none_iff l n).mpr fun b hb e => hn (e ▸ List.mem_map_of_mem (f := fun b => b.2.serial) hb))

theorem Lineage.issueBlend_fresh (h : l.blends.length ≤ 1024) : l.refsOf (.blend l.issueBlend) = none := by
  have hfresh := issueSerial_fresh (fun n => l.resident (.blend n)) l.blendSerials l.blendNext
    (fun n hn => refsOf_blend_mem ((l.resident_iff _).mp hn)) (by rw [Lineage.blendSerials, List.length_map]; omega)
  rw [Lineage.blendSerials, List.length_map] at hfresh
  by_contra hne
  have := (l.resident_iff _).mpr hne
  rw [show l.resident (.blend l.issueBlend) = false from hfresh] at this
  cases this

end issue

/-! ## Records placed -/

section place

variable {l : Lineage} {held owed : List Key}

theorem insertLowest_serials {α : Type} (serial : α → Nat) (r : α) (i : Nat) (xs : List (Nat × α))
    (hn : (xs.map (fun p => serial p.2)).Nodup) (hfree : xs.find? (fun p => serial p.2 == serial r) = none) :
    ((insertLowest r i xs).map (fun p => serial p.2)).Nodup := by
  obtain ⟨a, b, j, hx, hi⟩ := insertLowest_cut r i xs
  have hperm : ((insertLowest r i xs).map (fun p => serial p.2)).Perm (serial r :: xs.map (fun p => serial p.2)) := by
    rw [hi, hx, List.map_append, List.map_append, List.map_cons]
    exact List.perm_middle
  refine hperm.nodup_iff.mpr (List.nodup_cons.mpr ⟨fun hm => ?_, hn⟩)
  obtain ⟨p, hp, hs⟩ := List.mem_map.mp hm
  have := List.find?_eq_none.mp hfree p hp
  simp [hs] at this

theorem findColl_none {n : Nat} (h : l.refsOf (.coll n) = none) : l.findColl n = none := Option.map_eq_none_iff.mp h

theorem findBlend_none {n : Nat} (h : l.refsOf (.blend n) = none) : l.findBlend n = none := Option.map_eq_none_iff.mp h

theorem Lineage.refsOf_addColl {r : CollRec} (h : l.refsOf (.coll r.serial) = none) (k : Key) :
    (l.addColl r).refsOf k = if k = .coll r.serial then some r.refs else l.refsOf k := by
  obtain ⟨j, hj⟩ := find?_insertLowest CollRec.serial r 0 l.colls (findColl_none h)
  cases k with
  | unknown => rfl
  | blend n => rfl
  | coll n =>
    change (List.find? _ (insertLowest r 0 l.colls)).map _ = _
    rw [hj n]
    by_cases e : n = r.serial
    · rw [if_pos e, if_pos (congrArg Key.coll e)]
      rfl
    · rw [if_neg e, if_neg (by simpa using e)]
      rfl

theorem Lineage.refsOf_addBlend {r : BlendRec} (h : l.refsOf (.blend r.serial) = none) (k : Key) :
    (l.addBlend r).refsOf k = if k = .blend r.serial then some r.refs else l.refsOf k := by
  obtain ⟨j, hj⟩ := find?_insertLowest BlendRec.serial r 0 l.blends (findBlend_none h)
  cases k with
  | unknown => rfl
  | coll n => rfl
  | blend n =>
    change (List.find? _ (insertLowest r 0 l.blends)).map _ = _
    rw [hj n]
    by_cases e : n = r.serial
    · rw [if_pos e, if_pos (congrArg Key.blend e)]
      rfl
    · rw [if_neg e, if_neg (by simpa using e)]
      rfl

/-- The members of a blend placed count as members. -/
theorem Lineage.memberKeys_addBlend (l : Lineage) (r : BlendRec) (k : Key) :
    (l.addBlend r).memberKeys.count k = l.memberKeys.count k + (keysOf r.members).count k := by
  obtain ⟨a, b, j, hx, hi⟩ := insertLowest_cut r 0 l.blends
  change ((insertLowest r 0 l.blends).flatMap _).count k = (l.blends.flatMap _).count k + _
  rw [hi, hx, List.flatMap_append, List.flatMap_append, List.flatMap_cons, List.count_append, List.count_append,
    List.count_append]
  dsimp only
  omega

/-- A collection placed, with the keys that already carry it. -/
theorem Tallied.addColl (h : Tallied l held owed) {r : CollRec} (hfree : l.refsOf (.coll r.serial) = none)
    {held' : List Key} (hother : ∀ k, k ≠ .unknown → k ≠ .coll r.serial → held'.count k = held.count k)
    (hself : r.refs + owed.count (.coll r.serial) = held'.count (.coll r.serial)) : Tallied (l.addColl r) held' owed := by
  have hzero := h.listed (.coll r.serial) nofun hfree
  rw [List.count_append] at hzero
  have hmem : (l.addColl r).memberKeys = l.memberKeys := rfl
  refine ⟨insertLowest_serials CollRec.serial r 0 l.colls h.collSerials (findColl_none hfree), h.blendSerials,
    fun k n hk => ?_, fun k hu hk => ?_⟩
  · rw [l.refsOf_addColl hfree] at hk
    rw [hmem, List.count_append]
    split at hk
    · rename_i e
      subst e
      have := Option.some.inj hk
      omega
    · rename_i e
      have hu : k ≠ .unknown := fun e' => by
        rw [e'] at hk
        cases hk
      have := h.counted k n hk
      rw [List.count_append] at this
      rw [hother k hu e, this]
  · rw [l.refsOf_addColl hfree] at hk
    rw [hmem, List.count_append]
    split at hk
    · cases hk
    · rename_i e
      have := h.listed k hu hk
      rw [List.count_append] at this
      rw [hother k hu e, this]

/-- A blend placed at count 0: its members' references are owed. -/
theorem Tallied.addBlend (h : Tallied l held owed) {r : BlendRec} (hfree : l.refsOf (.blend r.serial) = none)
    (hrefs : r.refs = 0) (howed : owed.count (.blend r.serial) = 0)
    (hmem : ∀ k ∈ keysOf r.members, k ≠ .unknown → l.refsOf k ≠ none) :
    Tallied (l.addBlend r) held (owed ++ keysOf r.members) := by
  have hzero := h.listed (.blend r.serial) nofun hfree
  rw [List.count_append] at hzero
  have hself : (keysOf r.members).count (.blend r.serial) = 0 :=
    List.count_eq_zero.mpr fun hm => hmem _ hm nofun hfree
  refine ⟨h.collSerials, insertLowest_serials BlendRec.serial r 0 l.blends h.blendSerials (findBlend_none hfree),
    fun k n hk => ?_, fun k hu hk => ?_⟩
  · rw [l.refsOf_addBlend hfree] at hk
    rw [List.count_append, List.count_append, l.memberKeys_addBlend]
    split at hk
    · rename_i e
      subst e
      have := Option.some.inj hk
      omega
    · have := h.counted k n hk
      rw [List.count_append] at this
      omega
  · rw [l.refsOf_addBlend hfree] at hk
    rw [List.count_append, l.memberKeys_addBlend]
    split at hk
    · cases hk
    · have h1 := h.listed k hu hk
      have h2 : (keysOf r.members).count k = 0 := List.count_eq_zero.mpr fun hm => hmem k hm hu hk
      rw [List.count_append] at h1
      omega

end place

end Sys2Proof.Machine

/-! The lineage state's soundness taken apart: the tables against the keys held outside them, and the shape of vessels,
rings, fillers and banks. -/

namespace Sys2Proof.Machine

open Sys2Proof

/-! ## The keys held outside the tables -/

/-- The keys of a filler's batches. -/
def Filler.keys (x : Filler) : List Key := x.ring.flatMap (fun b => keysOf b.list)

/-- The keys of a ring's slots. -/
def Ring.keys (r : Ring) : List Key := r.slots.toList.flatMap (fun c => c.shares.map CompShare.key)

/-- The keys of vessels, slots and batches. -/
def Lineage.outerKeys (l : Lineage) : List Key :=
  l.vessels.toList.flatMap (fun v => keysOf v.list) ++ l.rings.toList.flatMap Ring.keys ++
    l.fillers.toList.flatMap Filler.keys

theorem Lineage.listedKeys_eq (l : Lineage) : l.listedKeys = l.outerKeys ++ l.memberKeys := rfl

theorem count_flatMap_vset {α β : Type} [BEq β] {n : Nat} (g : α → List β) (xs : Vector α n) {i : Nat} (hi : i < n)
    (y d : α) (k : β) : ((vset xs i y).toList.flatMap g).count k + (g (vget xs i d)).count k =
      (xs.toList.flatMap g).count k + (g y).count k := by
  rw [List.count_flatMap, List.count_flatMap]
  exact sum_map_vset (List.count k ∘ g) xs hi y d

section outer

variable (l : Lineage) (k : Key)

theorem Lineage.outerKeys_setVessel {v : Nat} (hv : v < 64) (y : Vessel) :
    (l.setVessel v y).outerKeys.count k + (keysOf (l.vessel v).list).count k =
      l.outerKeys.count k + (keysOf y.list).count k := by
  have h := count_flatMap_vset (fun x : Vessel => keysOf x.list) l.vessels hv y {} k
  unfold Lineage.outerKeys Lineage.setVessel Lineage.vessel
  rw [List.count_append, List.count_append, List.count_append, List.count_append]
  dsimp only at h ⊢
  omega

theorem Lineage.outerKeys_setRing {b : Nat} (hb : b < 8) (r : Ring) :
    (l.setRing b r).outerKeys.count k + (l.ring b).keys.count k = l.outerKeys.count k + r.keys.count k := by
  have h := count_flatMap_vset Ring.keys l.rings hb r {} k
  unfold Lineage.outerKeys Lineage.setRing Lineage.ring
  rw [List.count_append, List.count_append, List.count_append, List.count_append]
  dsimp only at h ⊢
  omega

theorem Lineage.outerKeys_setFiller {f : Nat} (hf : f < 8) (x : Filler) :
    (l.setFiller f x).outerKeys.count k + (l.filler f).keys.count k = l.outerKeys.count k + x.keys.count k := by
  have h := count_flatMap_vset Filler.keys l.fillers hf x {} k
  unfold Lineage.outerKeys Lineage.setFiller Lineage.filler
  rw [List.count_append, List.count_append, List.count_append, List.count_append]
  dsimp only at h ⊢
  omega

theorem Ring.keys_setSlot (r : Ring) {n : Nat} (hn : n < 6) (c : Slot) :
    (r.setSlot n c).keys.count k + ((r.slot n).shares.map CompShare.key).count k =
      r.keys.count k + (c.shares.map CompShare.key).count k :=
  count_flatMap_vset (fun c : Slot => c.shares.map CompShare.key) r.slots hn c {} k

end outer

/-! ## The shape -/

/-- A vessel by itself. -/
structure Vessel.Ok (x : Vessel) : Prop where
  store : x.kind = .store → ListBounded x.list ∧ (x.state ≠ .holding → x.list = []) ∧ x.capacity ≤ 1000000000
  other : x.kind ≠ .store → x.list = []
  bayIndex : x.bayIndex < 8
  fillerIndex : x.fillerIndex < 8

/-- A filler record by itself. -/
structure Filler.Ok (x : Filler) : Prop where
  batches : ∀ b ∈ x.ring, ListBounded b.list
  openBatch : x.state = .batchOpen → x.ring ≠ []

/-- A ring by itself. -/
structure Ring.Ok (r : Ring) : Prop where
  slots : ∀ k, k < 6 → (r.slot k).tag = .empty → (r.slot k).shares = []
  content : r.content ≤ 1000000000

/-- The vessels, rings, fillers and banks of a sound lineage state. -/
structure Shaped (l : Lineage) : Prop where
  vessels : ∀ v, v < 64 → (l.vessel v).Ok
  fillers : ∀ f, f < 8 → (l.filler f).Ok
  rings : ∀ b, b < 8 → (l.ring b).Ok
  cleaning : ∀ v, v < 64 → (l.vessel v).kind = .bay → (l.vessel v).state = .cleaning →
    (l.ring (l.vessel v).bayIndex).occupied = []
  bayIndices : ∀ u v, u < 64 → v < 64 → (l.vessel u).kind = .bay → (l.vessel v).kind = .bay →
    (l.vessel u).bayIndex = (l.vessel v).bayIndex → u = v
  freeRings : ∀ b, b < 8 → l.bayVessel b = none → (l.ring b).occupied = []
  freeFillers : ∀ f, f < 8 → l.fillerVessel f = none → (l.filler f).ring = []
  banks : ∀ i, i < 128 → l.routable (vget l.bankA i {}) ∧ l.routable (vget l.bankB i {})

/-- A sound lineage state: the tables tallied against the keys outside them, and the shape. -/
structure Lineage.Sound (l : Lineage) : Prop where
  tallied : Tallied l l.outerKeys []
  positive : l.Positive
  collRoom : l.colls.length ≤ 2048
  blendRoom : l.blends.length ≤ 1024
  shaped : Shaped l

section sound

variable {l : Lineage}

theorem find?_of_mem {α : Type} (serial : α → Nat) {xs : List (Nat × α)} (hn : (xs.map (fun p => serial p.2)).Nodup)
    {p : Nat × α} (hp : p ∈ xs) : xs.find? (fun q => serial q.2 == serial p.2) = some p := by
  induction xs with
  | nil => cases hp
  | cons x xs ih =>
    rw [List.map_cons, List.nodup_cons] at hn
    rw [List.find?_cons]
    rcases List.mem_cons.mp hp with rfl | hp
    · rw [beq_self_eq_true]
    · have hne : serial x.2 ≠ serial p.2 := fun e => hn.1 (e ▸ List.mem_map_of_mem (f := fun p => serial p.2) hp)
      rw [beq_eq_false_iff_ne.mpr hne]
      exact ih hn.2 hp

theorem refsOf_of_coll (hn : (l.colls.map (fun c => c.2.serial)).Nodup) {c : Nat × CollRec} (hc : c ∈ l.colls) :
    l.refsOf (.coll c.2.serial) = some c.2.refs := by
  have h := find?_of_mem CollRec.serial hn hc
  change (l.colls.find? _).map _ = _
  rw [h]
  rfl

theorem refsOf_of_blend (hn : l.blendSerials.Nodup) {b : Nat × BlendRec} (hb : b ∈ l.blends) :
    l.refsOf (.blend b.2.serial) = some b.2.refs := by
  have h := find?_of_mem BlendRec.serial hn hb
  change (l.blends.find? _).map _ = _
  rw [h]
  rfl

/-- A count is that of a record in its table. -/
theorem refsOf_some {k : Key} {r : Nat} (h : l.refsOf k = some r) :
    (∃ c ∈ l.colls, k = .coll c.2.serial ∧ c.2.refs = r) ∨ (∃ b ∈ l.blends, k = .blend b.2.serial ∧ b.2.refs = r) := by
  cases k with
  | unknown => cases h
  | coll n =>
    obtain ⟨c, hc, hr⟩ := Option.map_eq_some_iff.mp h
    have hs : c.2.serial = n := by simpa using List.find?_some hc
    exact .inl ⟨c, List.mem_of_find?_eq_some hc, congrArg Key.coll hs.symm, hr⟩
  | blend n =>
    obtain ⟨b, hb, hr⟩ := Option.map_eq_some_iff.mp h
    have hs : b.2.serial = n := by simpa using List.find?_some hb
    exact .inr ⟨b, List.mem_of_find?_eq_some hb, congrArg Key.blend hs.symm, hr⟩

theorem Lineage.Sound.lineageSound (h : l.Sound) : LineageSound l where
  collSerials := h.tallied.collSerials
  blendSerials := h.tallied.blendSerials
  collRoom := h.collRoom
  blendRoom := h.blendRoom
  collRefs := fun c hc => by
    have hr := refsOf_of_coll h.tallied.collSerials hc
    exact ⟨h.tallied.counted _ _ hr, h.positive _ _ hr⟩
  blendRefs := fun b hb => by
    have hr := refsOf_of_blend h.tallied.blendSerials hb
    exact ⟨h.tallied.counted _ _ hr, h.positive _ _ hr⟩
  resident := fun k hk => by
    by_cases hu : k = .unknown
    · exact .inl hu
    · refine .inr ((l.resident_iff k).mpr fun hn => ?_)
      have := h.tallied.listed k hu hn
      exact List.count_eq_zero.mp this hk
  stores := fun v hv hk => (h.shaped.vessels v hv).store hk
  others := fun v hv hk => (h.shaped.vessels v hv).other hk
  batches := fun f hf => (h.shaped.fillers f hf).batches
  openBatch := fun f hf => (h.shaped.fillers f hf).openBatch
  slots := fun b hb => (h.shaped.rings b hb).slots
  bays := fun b hb => (h.shaped.rings b hb).content
  cleaning := h.shaped.cleaning
  bayIndices := h.shaped.bayIndices
  freeRings := h.shaped.freeRings
  freeFillers := h.shaped.freeFillers
  indices := fun v hv => ⟨(h.shaped.vessels v hv).bayIndex, (h.shaped.vessels v hv).fillerIndex⟩
  banks := h.shaped.banks

theorem LineageSound.sound (h : LineageSound l) : l.Sound where
  tallied := {
    collSerials := h.collSerials
    blendSerials := h.blendSerials
    counted := fun k r hr => by
      rcases refsOf_some hr with ⟨c, hc, rfl, rfl⟩ | ⟨b, hb, rfl, rfl⟩
      · exact (h.collRefs c hc).1
      · exact (h.blendRefs b hb).1
    listed := fun k hu hn => List.count_eq_zero.mpr fun hk =>
      ((h.resident k hk).resolve_left hu |> (l.resident_iff k).mp) hn }
  positive := fun k r hr => by
    rcases refsOf_some hr with ⟨c, hc, rfl, rfl⟩ | ⟨b, hb, rfl, rfl⟩
    · exact (h.collRefs c hc).2
    · exact (h.blendRefs b hb).2
  collRoom := h.collRoom
  blendRoom := h.blendRoom
  shaped := {
    vessels := fun v hv => ⟨h.stores v hv, h.others v hv, (h.indices v hv).1, (h.indices v hv).2⟩
    fillers := fun f hf => ⟨h.batches f hf, h.openBatch f hf⟩
    rings := fun b hb => ⟨h.slots b hb, h.bays b hb⟩
    cleaning := h.cleaning
    bayIndices := h.bayIndices
    freeRings := h.freeRings
    freeFillers := h.freeFillers
    banks := h.banks }

end sound

end Sys2Proof.Machine

/-! What keeps a lineage state sound: flags and counters, one vessel, one ring, one filler. -/

namespace Sys2Proof.Machine

open Sys2Proof

/-! ## The same shape -/

/-- Two lineage states that differ in flags, categories and counters, in records and in meters alone. -/
structure SameShape (l k : Lineage) : Prop where
  vessels : ∀ v, ∃ c u s, k.vessel v = { l.vessel v with cat := c, uncertain := u, suspect := s }
  rings : k.rings = l.rings
  fillers : ∀ f, (k.filler f).state = (l.filler f).state ∧
    (k.filler f).ring.map Batch.list = (l.filler f).ring.map Batch.list
  bankA : k.bankA = l.bankA
  bankB : k.bankB = l.bankB

theorem toList_eq_map_vget {α : Type} {n : Nat} (xs : Vector α n) (d : α) :
    xs.toList = (List.range n).map (fun i => vget xs i d) := by
  refine List.ext_getElem (by simp) fun i hi _ => ?_
  have hn : i < n := by simpa using hi
  rw [List.getElem_map, List.getElem_range, vget_lt _ _ _ hn, Vector.getElem_toList]

section shape

variable {l k : Lineage}

theorem SameShape.refl (l : Lineage) : SameShape l l :=
  ⟨fun v => ⟨(l.vessel v).cat, (l.vessel v).uncertain, (l.vessel v).suspect, rfl⟩, rfl, fun _ => ⟨rfl, rfl⟩, rfl, rfl⟩

theorem SameShape.trans {m : Lineage} (h : SameShape l k) (g : SameShape k m) : SameShape l m := by
  refine ⟨fun v => ?_, g.rings.trans h.rings, fun f => ?_, g.bankA.trans h.bankA, g.bankB.trans h.bankB⟩
  · obtain ⟨c, u, s, hv⟩ := h.vessels v
    obtain ⟨c', u', s', hv'⟩ := g.vessels v
    exact ⟨c', u', s', by rw [hv', hv]⟩
  · exact ⟨(g.fillers f).1.trans (h.fillers f).1, (g.fillers f).2.trans (h.fillers f).2⟩

theorem SameShape.congr {m : Lineage} (h : SameShape l k) (hv : m.vessels = k.vessels) (hr : m.rings = k.rings)
    (hf : m.fillers = k.fillers) (ha : m.bankA = k.bankA) (hb : m.bankB = k.bankB) : SameShape l m := by
  refine ⟨fun v => ?_, hr.trans h.rings, fun f => ?_, ha.trans h.bankA, hb.trans h.bankB⟩
  · unfold Lineage.vessel
    rw [hv]
    exact h.vessels v
  · unfold Lineage.filler
    rw [hf]
    exact h.fillers f

variable (h : SameShape l k)
include h

theorem SameShape.outerKeys : k.outerKeys = l.outerKeys := by
  have hvessels : k.vessels.toList.flatMap (fun v => keysOf v.list) = l.vessels.toList.flatMap (fun v => keysOf v.list) := by
    rw [toList_eq_map_vget k.vessels {}, toList_eq_map_vget l.vessels {}, List.flatMap_map, List.flatMap_map]
    refine List.flatMap_congr fun v _ => ?_
    obtain ⟨c, u, s, hv⟩ := h.vessels v
    change keysOf (k.vessel v).list = keysOf (l.vessel v).list
    rw [hv]
  have hkeys : ∀ x : Filler, x.keys = (x.ring.map Batch.list).flatMap keysOf := fun x => by
    rw [Filler.keys, List.flatMap_map]
  have hfillers : k.fillers.toList.flatMap Filler.keys = l.fillers.toList.flatMap Filler.keys := by
    rw [toList_eq_map_vget k.fillers {}, toList_eq_map_vget l.fillers {}, List.flatMap_map, List.flatMap_map]
    refine List.flatMap_congr fun f _ => ?_
    change (k.filler f).keys = (l.filler f).keys
    rw [hkeys, hkeys, (h.fillers f).2]
  rw [Lineage.outerKeys, Lineage.outerKeys, hvessels, hfillers, h.rings]

theorem SameShape.carriers : k.bayVessel = l.bayVessel ∧ k.fillerVessel = l.fillerVessel ∧ k.routable = l.routable := by
  have hx : ∀ v, (k.vessel v).kind = (l.vessel v).kind ∧ (k.vessel v).bayIndex = (l.vessel v).bayIndex ∧
      (k.vessel v).fillerIndex = (l.vessel v).fillerIndex := fun v => by
    obtain ⟨c, u, s, hv⟩ := h.vessels v
    rw [hv]
    exact ⟨rfl, rfl, rfl⟩
  refine ⟨funext fun b => ?_, funext fun f => ?_, funext fun e => ?_⟩
  · unfold Lineage.bayVessel
    exact List.find?_congr fun v _ => by rw [(hx v).1, (hx v).2.1]
  · unfold Lineage.fillerVessel
    exact List.find?_congr fun v _ => by rw [(hx v).1, (hx v).2.2]
  · unfold Lineage.routable
    rw [(hx _).1, (hx _).1]

theorem SameShape.shaped (hl : Shaped l) : Shaped k := by
  have hring : k.ring = l.ring := by
    funext b
    unfold Lineage.ring
    rw [h.rings]
  obtain ⟨hbay, hfil, hroute⟩ := h.carriers
  have hempty : ∀ f, (l.filler f).ring = [] → (k.filler f).ring = [] := fun f he => by
    have := (h.fillers f).2
    rw [he] at this
    exact List.map_eq_nil_iff.mp this
  have hempty' : ∀ f, (k.filler f).ring = [] → (l.filler f).ring = [] := fun f he => by
    have := (h.fillers f).2
    rw [he] at this
    exact List.map_eq_nil_iff.mp this.symm
  refine ⟨fun v hv => ?_, fun f hf => ⟨fun b hb => ?_, fun ho he => ?_⟩, fun b hb => by rw [hring]; exact hl.rings b hb,
    fun v hv hk hs => ?_, fun u v hu hv hku hkv he => ?_, fun b hb hn => ?_, fun f hf hn => ?_, fun i hi => ?_⟩
  · obtain ⟨c, u, s, hx⟩ := h.vessels v
    rw [hx]
    obtain ⟨hst, hot, hbi, hfi⟩ := hl.vessels v hv
    exact ⟨hst, hot, hbi, hfi⟩
  · have hm : b.list ∈ (k.filler f).ring.map Batch.list := List.mem_map_of_mem hb
    rw [(h.fillers f).2] at hm
    obtain ⟨b', hb', he⟩ := List.mem_map.mp hm
    rw [← he]
    exact (hl.fillers f hf).batches b' hb'
  · exact (hl.fillers f hf).openBatch ((h.fillers f).1 ▸ ho) (hempty' f he)
  · obtain ⟨c, u, s, hx⟩ := h.vessels v
    rw [hx] at hk hs ⊢
    rw [hring]
    exact hl.cleaning v hv hk hs
  · obtain ⟨c, x, s, hx⟩ := h.vessels u
    obtain ⟨c', x', s', hx'⟩ := h.vessels v
    rw [hx] at hku he
    rw [hx'] at hkv he
    exact hl.bayIndices u v hu hv hku hkv he
  · rw [hring]
    exact hl.freeRings b hb (hbay ▸ hn)
  · exact hempty f (hl.freeFillers f hf (hfil ▸ hn))
  · rw [hroute, h.bankA, h.bankB]
    exact hl.banks i hi

end shape

/-- The tables' serials, members and counts. -/
structure SameCounts (l k : Lineage) : Prop extends SameRecords l k where
  refs : k.refsOf = l.refsOf

section counts

variable {l k : Lineage}

theorem SameCounts.of_eq (hc : k.colls = l.colls) (hb : k.blends = l.blends) : SameCounts l k :=
  ⟨⟨by rw [hc], by unfold Lineage.blendSerials; rw [hb], by unfold Lineage.memberKeys; rw [hb]⟩,
    Lineage.refsOf_congr hc hb⟩

theorem Tallied.of_counts {held owed : List Key} (h : Tallied l held owed) (hs : SameCounts l k) :
    Tallied k held owed := by
  refine ⟨hs.collSerials ▸ h.collSerials, hs.blendSerials ▸ h.blendSerials, fun x r hx => ?_, fun x hu hx => ?_⟩
  · rw [hs.members]
    exact h.counted x r (hs.refs ▸ hx)
  · rw [hs.members]
    exact h.listed x hu (hs.refs ▸ hx)

/-- Flags and counters have no bearing on soundness. -/
theorem Lineage.Sound.of_same (h : l.Sound) (hs : SameShape l k) (ht : SameCounts l k) : k.Sound := by
  have hc : k.colls.length = l.colls.length := by
    rw [← List.length_map (as := k.colls) (fun c => c.2.serial), ht.collSerials, List.length_map]
  have hb : k.blends.length = l.blends.length := by
    have := congrArg List.length ht.blendSerials
    rwa [Lineage.blendSerials, Lineage.blendSerials, List.length_map, List.length_map] at this
  exact ⟨hs.outerKeys ▸ h.tallied.of_counts ht, fun x r hx => h.positive x r (ht.refs ▸ hx), hc ▸ h.collRoom,
    hb ▸ h.blendRoom, hs.shaped h.shaped⟩

end counts

/-! ## One vessel, one ring, one filler -/

section change

variable {l : Lineage} (h : Shaped l)
include h

theorem Shaped.of_parts {k : Lineage} (hv : k.vessels = l.vessels) (hr : k.rings = l.rings) (hf : k.fillers = l.fillers)
    (ha : k.bankA = l.bankA) (hb : k.bankB = l.bankB) : Shaped k :=
  ((SameShape.refl l).congr hv hr hf ha hb).shaped h

/-- A vessel changed in its place. -/
theorem Shaped.setVessel {v : Nat} (hv : v < 64) {y : Vessel} (hy : y.Ok) (hk : y.kind = (l.vessel v).kind)
    (hb : y.bayIndex = (l.vessel v).bayIndex) (hf : y.fillerIndex = (l.vessel v).fillerIndex)
    (hc : y.kind = .bay → y.state = .cleaning → (l.ring y.bayIndex).occupied = []) : Shaped (l.setVessel v y) := by
  have hx : ∀ u, ((l.setVessel v y).vessel u).kind = (l.vessel u).kind ∧
      ((l.setVessel v y).vessel u).bayIndex = (l.vessel u).bayIndex ∧
      ((l.setVessel v y).vessel u).fillerIndex = (l.vessel u).fillerIndex := fun u => by
    by_cases e : v = u
    · rw [← e, Lineage.setVessel_same hv]
      exact ⟨hk, hb, hf⟩
    · rw [Lineage.setVessel_ne e]
      exact ⟨rfl, rfl, rfl⟩
  have hbay : (l.setVessel v y).bayVessel = l.bayVessel := funext fun b =>
    List.find?_congr fun u _ => by rw [(hx u).1, (hx u).2.1]
  have hfil : (l.setVessel v y).fillerVessel = l.fillerVessel := funext fun f =>
    List.find?_congr fun u _ => by rw [(hx u).1, (hx u).2.2]
  have hroute : (l.setVessel v y).routable = l.routable := funext fun e => by
    unfold Lineage.routable
    rw [(hx _).1, (hx _).1]
  refine ⟨fun u hu => ?_, h.fillers, h.rings, fun u hu hku hs => ?_, fun u w hu hw hku hkw he => ?_,
    fun b hb hn => h.freeRings b hb (hbay ▸ hn), fun f hf hn => h.freeFillers f hf (hfil ▸ hn), fun i hi => ?_⟩
  · by_cases e : v = u
    · rw [← e, Lineage.setVessel_same hv]
      exact hy
    · rw [Lineage.setVessel_ne e]
      exact h.vessels u hu
  · by_cases e : v = u
    · rw [← e, Lineage.setVessel_same hv] at hku hs ⊢
      exact hc hku hs
    · rw [Lineage.setVessel_ne e] at hku hs ⊢
      exact h.cleaning u hu hku hs
  · rw [(hx u).1] at hku
    rw [(hx w).1] at hkw
    rw [(hx u).2.1, (hx w).2.1] at he
    exact h.bayIndices u w hu hw hku hkw he
  · rw [hroute]
    exact h.banks i hi

/-- A ring changed in its place: what no vessel carries, or a vessel that is CLEANING, stays empty. -/
theorem Shaped.setRing {b : Nat} {r : Ring} (hr : r.Ok) (hfree : l.bayVessel b = none → r.occupied = [])
    (hclean : ∀ v, v < 64 → (l.vessel v).kind = .bay → (l.vessel v).bayIndex = b → (l.vessel v).state = .cleaning →
      r.occupied = []) : Shaped (l.setRing b r) := by
  have hring : ∀ c, (l.setRing b r).ring c = l.ring c ∨ (c = b ∧ (l.setRing b r).ring c = r) := fun c => by
    by_cases e : b = c
    · by_cases hlt : b < 8
      · rw [← e]
        exact .inr ⟨rfl, vget_vset_same _ _ _ _ hlt⟩
      · refine .inl ?_
        unfold Lineage.ring Lineage.setRing
        rw [vset_of_le _ (Nat.le_of_not_lt hlt)]
    · exact .inl (vget_vset_ne _ _ _ _ _ e)
  refine ⟨h.vessels, h.fillers, fun c hc => ?_, fun v hv hk hs => ?_, h.bayIndices, fun c hc hn => ?_, h.freeFillers, h.banks⟩
  · rcases hring c with e | ⟨_, e⟩
    · rw [e]
      exact h.rings c hc
    · rw [e]
      exact hr
  · rcases hring (l.vessel v).bayIndex with e | ⟨e, e'⟩
    · exact (congrArg Ring.occupied e).trans (h.cleaning v hv hk hs)
    · exact (congrArg Ring.occupied e').trans (hclean v hv hk e hs)
  · rcases hring c with e | ⟨e, e'⟩
    · rw [e]
      exact h.freeRings c hc hn
    · rw [e']
      exact hfree (e ▸ hn)

/-- A filler changed in its place: what no vessel carries stays empty. -/
theorem Shaped.setFiller {f : Nat} {x : Filler} (hx : x.Ok) (hfree : l.fillerVessel f = none → x.ring = []) :
    Shaped (l.setFiller f x) := by
  have hfiller : ∀ g, (l.setFiller f x).filler g = l.filler g ∨ (g = f ∧ (l.setFiller f x).filler g = x) := fun g => by
    by_cases e : f = g
    · by_cases hlt : f < 8
      · rw [← e]
        exact .inr ⟨rfl, vget_vset_same _ _ _ _ hlt⟩
      · refine .inl ?_
        unfold Lineage.filler Lineage.setFiller
        rw [vset_of_le _ (Nat.le_of_not_lt hlt)]
    · exact .inl (vget_vset_ne _ _ _ _ _ e)
  refine ⟨h.vessels, fun g hg => ?_, h.rings, h.cleaning, h.bayIndices, h.freeRings, fun g hg hn => ?_, h.banks⟩
  · rcases hfiller g with e | ⟨_, e⟩
    · rw [e]
      exact h.fillers g hg
    · rw [e]
      exact hx
  · rcases hfiller g with e | ⟨e, e'⟩
    · rw [e]
      exact h.freeFillers g hg hn
    · rw [e']
      exact hfree (e ▸ hn)

end change

end Sys2Proof.Machine

/-! What keeps a lineage state sound: the operations that write flags, counters and meters alone. -/

namespace Sys2Proof.Machine

open Sys2Proof

/-- Two lineage states alike but for flags, categories, counters and meters. -/
structure Alike (l k : Lineage) : Prop extends SameShape l k where
  colls : k.colls = l.colls
  blends : k.blends = l.blends

section alike

variable {l k : Lineage}

theorem Alike.refl (l : Lineage) : Alike l l := ⟨.refl l, rfl, rfl⟩

theorem Alike.trans {m : Lineage} (h : Alike l k) (g : Alike k m) : Alike l m :=
  ⟨h.toSameShape.trans g.toSameShape, g.colls.trans h.colls, g.blends.trans h.blends⟩

theorem Alike.sound (h : Alike l k) (hl : l.Sound) : k.Sound :=
  hl.of_same h.toSameShape (.of_eq h.colls h.blends)

/-- Meters, the Valve Image, the tables of categories and the counters have no bearing. -/
theorem Alike.of_parts (hv : k.vessels = l.vessels) (hr : k.rings = l.rings) (hf : k.fillers = l.fillers)
    (ha : k.bankA = l.bankA) (hb : k.bankB = l.bankB) (hc : k.colls = l.colls) (hbl : k.blends = l.blends) : Alike l k :=
  ⟨(SameShape.refl l).congr hv hr hf ha hb, hc, hbl⟩

/-- A vessel's flags and category. -/
theorem Alike.setVessel (l : Lineage) (v : Nat) (c : Cat) (u s : Bool) :
    Alike l (l.setVessel v { l.vessel v with cat := c, uncertain := u, suspect := s }) := by
  refine ⟨⟨fun w => ?_, rfl, fun _ => ⟨rfl, rfl⟩, rfl, rfl⟩, rfl, rfl⟩
  by_cases e : v = w
  · by_cases hlt : v < 64
    · rw [← e, Lineage.setVessel_same hlt]
      exact ⟨c, u, s, rfl⟩
    · rw [Lineage.setVessel, Lineage.vessel, vset_of_le _ (Nat.le_of_not_lt hlt)]
      exact ⟨_, _, _, rfl⟩
  · rw [Lineage.setVessel_ne e]
    exact ⟨_, _, _, rfl⟩

/-- A filler with batches of the same lists, in the same state. -/
theorem Alike.setFiller (l : Lineage) (f : Nat) {x : Filler} (hs : x.state = (l.filler f).state)
    (hr : x.ring.map Batch.list = (l.filler f).ring.map Batch.list) : Alike l (l.setFiller f x) := by
  refine ⟨⟨fun v => ⟨_, _, _, rfl⟩, rfl, fun g => ?_, rfl, rfl⟩, rfl, rfl⟩
  by_cases e : f = g
  · by_cases hlt : f < 8
    · rw [← e, Lineage.setFiller_same hlt]
      exact ⟨hs, hr⟩
    · rw [Lineage.setFiller, Lineage.filler, vset_of_le _ (Nat.le_of_not_lt hlt)]
      exact ⟨rfl, rfl⟩
  · rw [Lineage.setFiller_ne e]
    exact ⟨rfl, rfl⟩

theorem modifyLast_lists {g : Batch → Batch} (hg : ∀ b, (g b).list = b.list) (bs : List Batch) :
    (modifyLast g bs).map Batch.list = bs.map Batch.list := by
  rcases List.eq_nil_or_concat bs with rfl | ⟨older, b, rfl⟩
  · rfl
  · rw [List.concat_eq_append, modifyLast_concat, List.map_append, List.map_append, List.map_cons, List.map_cons, hg]

theorem Filler.modifyOpen_lists {g : Batch → Batch} (hg : ∀ b, (g b).list = b.list) (x : Filler) :
    (x.modifyOpen g).state = x.state ∧ (x.modifyOpen g).ring.map Batch.list = x.ring.map Batch.list := by
  unfold Filler.modifyOpen
  split
  · exact ⟨rfl, modifyLast_lists hg _⟩
  · exact ⟨rfl, rfl⟩

theorem Alike.modifyOpenOf (l : Lineage) (v : Vessel) {g : Batch → Batch} (hg : ∀ b, (g b).list = b.list) :
    Alike l (l.modifyOpenOf v g) :=
  .setFiller l _ (Filler.modifyOpen_lists hg _).1 (Filler.modifyOpen_lists hg _).2

theorem Alike.setUncertain (l : Lineage) (v : Nat) : Alike l (l.setUncertain v) := by
  unfold Lineage.setUncertain
  dsimp only
  split
  · exact .refl l
  · exact .setVessel l v _ _ _
  · exact .setVessel l v _ _ _
  · exact .modifyOpenOf l _ fun _ => rfl

theorem Alike.setUncertainAll (vs : List Nat) (l : Lineage) : Alike l (l.setUncertainAll vs) := by
  induction vs generalizing l with
  | nil => exact .refl l
  | cons v vs ih => exact (Alike.setUncertain l v).trans (ih _)

theorem Alike.rederive (l : Lineage) (v : Nat) : Alike l (l.rederive v) := by
  unfold Lineage.rederive
  dsimp only
  split
  · exact .refl l
  · exact .setVessel l v _ _ _
  · exact .setVessel l v _ _ _
  · exact .modifyOpenOf l _ fun _ => rfl

end alike

/-! ## The operations on flags, counters and meters -/

section operations

variable (s : State) (tag : Nat)

theorem State.opValve_alike (c : Nat) (v : Word16) : Alike s.lin (s.opValve tag c v).lin := by
  rw [State.opValve_eq]
  exact .of_parts rfl rfl rfl rfl rfl rfl rfl

theorem State.opSwitchBank_alike : Alike s.lin (s.opSwitchBank tag).lin := by
  rw [State.opSwitchBank_eq]
  dsimp only
  rw [Lineage.resolveOpen_eq]
  exact .of_parts rfl rfl rfl rfl rfl rfl rfl

theorem State.opGap_alike (n : Nat) : Alike s.lin (s.opGap tag n).lin := by
  unfold State.opGap
  rw [State.raise_lin]
  exact .setUncertainAll _ _

theorem Filler.countCartons_list (x : Filler) (n : Nat) (b : Batch) : (x.countCartons n b).list = b.list := by
  unfold Filler.countCartons
  split
  · split <;> rfl
  · split <;> rfl

theorem State.opCarton_alike (f n : Nat) : Alike s.lin (s.opCarton f n).lin := by
  unfold State.opCarton
  split
  · exact .refl _
  · have h := Filler.modifyOpen_lists ((s.lin.filler f).countCartons_list n) (s.lin.filler f)
    exact .setFiller s.lin f h.1 h.2

theorem State.opDispatch_alike (code : List Byte) (n note : Nat) : Alike s.lin (s.opDispatch tag code n note).lin := by
  unfold State.opDispatch
  split
  · rename_i f b _
    rw [State.dispatchResolved_eq]
    refine .setFiller s.lin f rfl ?_
    rw [List.map_map]
    refine List.map_congr_left fun y _ => ?_
    dsimp only [Function.comp]
    split <;> rfl
  · rw [State.raise_lin]
    exact .refl _

theorem State.opHoldRelease_alike (a : Nat) : Alike s.lin (s.opHoldRelease tag a).1.lin := by
  unfold State.opHoldRelease
  split <;> exact .refl _

end operations

end Sys2Proof.Machine

/-! What keeps a lineage state sound: the suspect commands. -/

namespace Sys2Proof.Machine

open Sys2Proof

theorem find?_refs {α : Type} (serial refs : α → Nat) (n : Nat) (xs : List (Nat × α)) :
    (xs.find? (fun p => serial p.2 == n)).map (fun p => refs p.2) =
      ((xs.map (fun p => (serial p.2, refs p.2))).find? (fun p => p.1 == n)).map Prod.snd := by
  rw [List.find?_map, Option.map_map]
  rfl

section flags

variable {l k : Lineage}

/-- Records with the serials, counts and members of others. -/
theorem SameCounts.of_flags
    (hc : k.colls.map (fun c => (c.2.serial, c.2.refs)) = l.colls.map (fun c => (c.2.serial, c.2.refs)))
    (hb : k.blends.map (fun b => (b.2.serial, b.2.refs)) = l.blends.map (fun b => (b.2.serial, b.2.refs)))
    (hm : k.blends.map (fun b => b.2.members) = l.blends.map (fun b => b.2.members)) : SameCounts l k := by
  have hfst : ∀ {α : Type} (serial refs : α → Nat) (xs : List (Nat × α)),
      xs.map (fun p => serial p.2) = (xs.map (fun p => (serial p.2, refs p.2))).map Prod.fst := fun serial refs xs => by
    rw [List.map_map]
    rfl
  refine ⟨⟨?_, ?_, ?_⟩, funext fun x => ?_⟩
  · rw [hfst CollRec.serial CollRec.refs, hfst CollRec.serial CollRec.refs, hc]
  · rw [Lineage.blendSerials, Lineage.blendSerials, hfst BlendRec.serial BlendRec.refs, hfst BlendRec.serial BlendRec.refs, hb]
  · have hkeys : ∀ m : Lineage, m.memberKeys = (m.blends.map (fun b => b.2.members)).flatMap keysOf := fun m => by
      rw [Lineage.memberKeys, List.flatMap_map]
    rw [hkeys, hkeys, hm]
  · cases x with
    | unknown => rfl
    | coll n =>
      change (k.colls.find? _).map _ = (l.colls.find? _).map _
      rw [find?_refs CollRec.serial CollRec.refs, find?_refs CollRec.serial CollRec.refs, hc]
    | blend n =>
      change (k.blends.find? _).map _ = (l.blends.find? _).map _
      rw [find?_refs BlendRec.serial BlendRec.refs, find?_refs BlendRec.serial BlendRec.refs, hb]

theorem SweptFrom.counts {release : Bool} {arg : MarkArg} {n : Nat} (h : SweptFrom l release arg k n) :
    SameCounts l k.remarked := by
  have hc : k.remarked.colls = (l.markedBy release arg).colls := by
    rw [k.remarked_eq, h.others]
  have hb : k.remarked.blends = k.blends := by rw [k.remarked_eq]
  refine .of_flags ?_ ?_ ?_
  · rw [hc]
    exact (List.map_map ..).trans (List.map_congr_left fun c _ => rfl)
  · rw [hb, h.blends]
    exact (List.map_map ..).trans (List.map_congr_left fun b _ => rfl)
  · rw [hb, h.blends]
    exact (List.map_map ..).trans (List.map_congr_left fun b _ => rfl)

theorem SweptFrom.shape {release : Bool} {arg : MarkArg} {n : Nat} (h : SweptFrom l release arg k n) :
    SameShape l k.remarked := by
  obtain ⟨hkf, hkv, hkr, hka, hkb⟩ : k.fillers = l.fillers ∧ k.vessels = l.vessels ∧ k.rings = l.rings ∧
      k.bankA = l.bankA ∧ k.bankB = l.bankB := by
    rw [h.others]
    exact ⟨rfl, rfl, rfl, rfl, rfl⟩
  obtain ⟨hr, ha, hb⟩ : k.remarked.rings = k.rings ∧ k.remarked.bankA = k.bankA ∧ k.remarked.bankB = k.bankB := by
    rw [k.remarked_eq]
    exact ⟨rfl, rfl, rfl⟩
  refine ⟨fun v => ?_, hr.trans hkr, fun f => ?_, ha.trans hka, hb.trans hkb⟩
  · by_cases hv : v < 64
    · rw [k.remarked_vessel hv, Lineage.vessel, hkv]
      exact ⟨_, _, _, rfl⟩
    · have hnone : ∀ m : Lineage, m.vessel v = {} := fun m => by simp [Lineage.vessel, vget, hv]
      rw [hnone, hnone]
      exact ⟨_, _, _, rfl⟩
  · by_cases hf : f < 8
    · rw [k.remarked_filler hf, Lineage.filler, hkf]
      refine ⟨rfl, ?_⟩
      dsimp only
      rw [List.map_map]
      rfl
    · have hnone : ∀ m : Lineage, m.filler f = {} := fun m => by simp [Lineage.filler, vget, hf]
      rw [hnone, hnone]
      exact ⟨rfl, rfl⟩

end flags

/-- A command is accepted, or refused with nothing marked. -/
theorem Lineage.marks_cases (l : Lineage) (release : Bool) (arg : MarkArg) :
    l.Accepts release arg ∨ ∃ r, r ≠ .done ∧ l.marks release arg = .refusal l r := by
  cases arg with
  | key k =>
    by_cases hk : MarkKeyOk k
    · by_cases hf : (k.kind = 1 ∧ ∃ c ∈ l.colls, c.2.serial = k.serial) ∨ (k.kind = 2 ∧ ∃ b ∈ l.blends, b.2.serial = k.serial)
      · exact .inl ⟨hk, hf⟩
      · exact .inr ⟨.notResident, nofun, marks_keyNotFound hk hf⟩
    · exact .inr ⟨.badArgument, nofun, marks_badKey hk⟩
  | sample n =>
    by_cases hs : ∃ c ∈ l.colls, c.2.namedBy (.sample n) = true
    · exact .inl hs
    · exact .inr ⟨.notResident, nofun, marks_sampleNotFound fun c hc => Bool.eq_false_iff.mpr fun h => hs ⟨c, hc, h⟩⟩
  | farm n =>
    by_cases hn : n ≤ 16777215
    · by_cases hm : n ∈ l.farms
      · exact .inl ⟨hn, .inl hm⟩
      · cases release with
        | false =>
          by_cases hlen : l.farms.length < 16
          · exact .inl ⟨hn, .inr (.inl ⟨rfl, hlen⟩)⟩
          · exact .inr ⟨.listFull, nofun, marks_farmFull hn hm (Nat.le_of_not_lt hlen)⟩
        | true =>
          by_cases hs : ∃ c ∈ l.colls, c.2.namedBy (.farm n) = true
          · exact .inl ⟨hn, .inr (.inr ⟨rfl, hs⟩)⟩
          · exact .inr ⟨.notResident, nofun, marks_farmNotFound hn hm fun c hc => Bool.eq_false_iff.mpr fun h => hs ⟨c, hc, h⟩⟩
    · exact .inr ⟨.badArgument, nofun, marks_farmBad (Nat.lt_of_not_le hn)⟩

theorem State.opMark_sound (s : State) (tag : Nat) (release : Bool) (arg : MarkArg) (h : s.lin.Sound) :
    (s.opMark tag release arg).lin.Sound := by
  rcases s.lin.marks_cases release arg with ha | ⟨r, hr, hm⟩
  · obtain ⟨k, n, hk⟩ := s.lin.sweptFrom release arg h.tallied.blendSerials
    rw [s.opMark_accepted tag (Lineage.marks_accepted h.tallied.blendSerials ha) hk]
    have hl := (s.sweepRecords k.remarked tag release (s.lin.sweepReport release arg k (n + 1)) (s.lin.flipped k)).1
    rw [hl]
    exact h.of_same hk.shape hk.counts
  · have hop : s.opMark tag release arg = s.write tag (.sweep release { arg := arg, result := r }) := by
      unfold State.opMark
      rw [hm]
      exact if_neg (by simpa [Marked.refusal] using hr)
    rw [hop]
    exact h

end Sys2Proof.Machine

/-! What keeps a lineage state sound: keys released, batches closed and opened, vessels and bays cleaned. -/

namespace Sys2Proof.Machine

open Sys2Proof

/-! ## Keys released -/

section releasing

variable {l k : Lineage}

/-- Lists that lose keys, with those keys released. -/
theorem Lineage.Sound.releasing (h : l.Sound) {ks : List Key} (hc : k.colls = (l.releaseAll ks).colls)
    (hb : k.blends = (l.releaseAll ks).blends)
    (hkeys : ∀ x, x ≠ .unknown → k.outerKeys.count x + ks.count x = l.outerKeys.count x) (hs : Shaped k) : k.Sound := by
  have hl : Tallied l (ks ++ k.outerKeys) [] := h.tallied.perm fun x hx => by
    have := hkeys x hx
    rw [List.count_append]
    omega
  obtain ⟨ht, hp, hbl, hcl⟩ := Tallied.releaseAll ks l hl h.positive
  have hsame : SameCounts (l.releaseAll ks) k := .of_eq hc hb
  refine ⟨ht.of_counts hsame, fun x r hx => hp x r (hsame.refs ▸ hx), ?_, ?_, hs⟩
  · rw [hc]
    exact hcl.trans h.collRoom
  · rw [hb]
    exact hbl.trans h.blendRoom

/-- Nothing is released where the lists keep their keys. -/
theorem Lineage.Sound.of_shape (h : l.Sound) (hc : k.colls = l.colls) (hb : k.blends = l.blends)
    (hkeys : ∀ x, k.outerKeys.count x = l.outerKeys.count x) (hs : Shaped k) : k.Sound :=
  h.releasing (ks := []) hc hb (fun x _ => hkeys x) hs

end releasing

/-! ## Batches closed (R110 to R112, R114) -/

section close

theorem Filler.keys_of_lists {x y : Filler} (h : x.ring.map Batch.list = y.ring.map Batch.list) : x.keys = y.keys := by
  have hkeys : ∀ x : Filler, x.keys = (x.ring.map Batch.list).flatMap keysOf := fun x => by
    rw [Filler.keys, List.flatMap_map]
  rw [hkeys, hkeys, h]

theorem Filler.Ok.of_lists {x y : Filler} (hy : y.Ok) (h : x.ring.map Batch.list = y.ring.map Batch.list)
    (ho : x.state = .batchOpen → y.state = .batchOpen) : x.Ok := by
  refine ⟨fun b hb => ?_, fun hx he => ?_⟩
  · have hm : b.list ∈ x.ring.map Batch.list := List.mem_map_of_mem hb
    rw [h] at hm
    obtain ⟨b', hb', he⟩ := List.mem_map.mp hm
    exact he ▸ hy.batches b' hb'
  · rw [he] at h
    exact hy.openBatch (ho hx) (List.map_eq_nil_iff.mp h.symm)

/-- A filler whose batches keep their lists, not opened. -/
theorem Lineage.Sound.setFiller {l : Lineage} (h : l.Sound) {f : Nat} {x : Filler}
    (hr : x.ring.map Batch.list = (l.filler f).ring.map Batch.list)
    (ho : x.state = .batchOpen → (l.filler f).state = .batchOpen) : (l.setFiller f x).Sound := by
  by_cases hf : f < 8
  · refine h.of_shape rfl rfl (fun k => ?_) (h.shaped.setFiller (.of_lists (h.shaped.fillers f hf) hr ho) fun hn => ?_)
    · have := l.outerKeys_setFiller k hf x
      rw [Filler.keys_of_lists hr] at this
      omega
    · rw [h.shaped.freeFillers f hf hn] at hr
      exact List.map_eq_nil_iff.mp hr
  · rw [Lineage.setFiller, vset_of_le _ (Nat.le_of_not_lt hf)]
    exact h

theorem State.closeBatch_sound {s : State} (h : s.lin.Sound) (f : Nat) (reason : CloseReason) (tag : Nat)
    (expiry : Option TimeStamp) {next : FillerState} (hnext : next ≠ .batchOpen) :
    (s.closeBatch f reason tag expiry next).lin.Sound := by
  cases ho : (s.lin.filler f).openBatch with
  | none =>
    have : s.closeBatch f reason tag expiry next = s := by
      unfold State.closeBatch
      dsimp only
      rw [ho]
    rw [this]
    exact h
  | some b =>
    obtain ⟨hs, hl⟩ := Filler.openBatch_some ho
    obtain ⟨older, hr⟩ := List.getLast?_eq_some_iff.mp hl
    rw [State.closeBatch_concat hs hr]
    refine h.setFiller ?_ fun e => absurd e hnext
    rw [hr, List.map_append, List.map_append]
    rfl

theorem State.opBatchClose_sound {s : State} (h : s.lin.Sound) (tag f : Nat) : (s.opBatchClose tag f).lin.Sound := by
  cases hv : s.lin.fillerVessel f with
  | none =>
    rw [State.opBatchClose_unknown hv]
    exact h
  | some v =>
    rw [State.opBatchClose_known (by rw [hv]; nofun)]
    split
    · exact State.closeBatch_sound h f _ tag _ nofun
    · exact h

theorem State.opIdleClose_sound {s : State} (h : s.lin.Sound) (tag f serial : Nat) (expiry : TimeStamp) :
    (s.opIdleClose tag f serial expiry).lin.Sound := by
  unfold State.opIdleClose
  split
  · exact State.closeBatch_sound h f _ tag _ nofun
  · exact h

end close

/-! ## Batches opened (R102) -/

theorem listBounded_nil : ListBounded [] := ⟨⟨by decide, List.nodup_nil, fun _ h => absurd h List.not_mem_nil⟩, by decide⟩

section opening

variable (x : Filler) (now : TimeStamp)

theorem Filler.closedRing_lists : (x.closedRing now).map Batch.list = x.ring.map Batch.list := by
  unfold Filler.closedRing
  split
  · exact modifyLast_lists (g := fun b => b.closedAs now .superseded) (fun _ => rfl) _
  · rfl

/-- The keys of a ring are those it keeps and those of the batch it loses. -/
theorem Filler.kept_evicted_keys (k : Key) :
    ((x.keptRing now).flatMap (fun b => keysOf b.list)).count k + (x.evictedKeys now).count k = x.keys.count k := by
  have hclosed : (x.closedRing now).flatMap (fun b => keysOf b.list) = x.keys := by
    have hkeys : ∀ bs : List Batch, bs.flatMap (fun b => keysOf b.list) = (bs.map Batch.list).flatMap keysOf :=
      fun bs => by rw [List.flatMap_map]
    rw [Filler.keys, hkeys, hkeys, x.closedRing_lists now]
  unfold Filler.keptRing Filler.evictedKeys
  rw [← hclosed]
  split
  · rfl
  · cases x.closedRing now with
    | nil => rfl
    | cons o rest =>
      rw [List.flatMap_cons, List.count_append, Nat.add_comm]
      rfl

theorem Filler.keptRing_lists {b : Batch} (hb : b ∈ x.keptRing now) : ∃ y ∈ x.ring, y.list = b.list := by
  have hm : b ∈ x.closedRing now := by
    unfold Filler.keptRing at hb
    split at hb
    · exact hb
    · exact List.mem_of_mem_drop hb
  have : b.list ∈ (x.closedRing now).map Batch.list := List.mem_map_of_mem hm
  rw [x.closedRing_lists] at this
  exact List.mem_map.mp this

/-- A filler that a vessel carries takes a new batch, which is empty. -/
theorem Lineage.Sound.joinBatch {l : Lineage} (h : l.Sound) {f : Nat} (hf : f < 8) (hv : l.fillerVessel f ≠ none)
    {b : Batch} (hb : b.list = []) (timer : Option Nat) : (l.joinBatch f b now timer).Sound := by
  let m := l.withRecords (l.releaseAll ((l.filler f).evictedKeys now))
  let x : Filler := { l.filler f with
    state := .batchOpen, ring := (l.filler f).keptRing now ++ [b],
    seq := if b.indefinite = true then (l.filler f).seq else (l.filler f).seq + 1, timer := timer }
  have hm : Shaped m := h.shaped.of_parts rfl rfl rfl rfl rfl
  have hx : x.Ok := by
    refine ⟨fun c hc => ?_, fun _ => List.append_ne_nil_of_right_ne_nil _ (List.cons_ne_nil _ _)⟩
    rcases List.mem_append.mp hc with hc | hc
    · obtain ⟨y, hy, he⟩ := (l.filler f).keptRing_lists now hc
      exact he ▸ (h.shaped.fillers f hf).batches y hy
    · rw [List.mem_singleton.mp hc, hb]
      exact listBounded_nil
  refine h.releasing (k := l.joinBatch f b now timer) (ks := (l.filler f).evictedKeys now) rfl rfl (fun k _ => ?_)
    ((hm.setFiller (f := f) hx fun hn => absurd hn hv).of_parts rfl rfl rfl rfl rfl)
  have hcount := l.outerKeys_setFiller k hf x
  have hkept := (l.filler f).kept_evicted_keys now k
  have hkeys : x.keys.count k = (((l.filler f).keptRing now).flatMap (fun b => keysOf b.list)).count k := by
    rw [Filler.keys, List.flatMap_append, List.flatMap_cons, hb]
    exact congrArg (List.count k) (List.append_nil _)
  change (l.setFiller f x).outerKeys.count k + _ = _
  omega

theorem State.openBatch_sound {s : State} (h : s.lin.Sound) {f : Nat} (hf : f < 8) (hv : s.lin.fillerVessel f ≠ none)
    (v : Vessel) (product : Nat) (declared : Cat) (cause : OpenCause) (tag : Nat) :
    (s.openBatch f v product declared cause tag).lin.Sound := by
  rw [State.openBatch_lin tag s hf]
  exact h.joinBatch _ hf hv rfl _

theorem State.opBatchOpen_sound {s : State} (h : s.lin.Sound) (tag : Nat) (command : Bool) (f product cat : Nat) :
    (s.opBatchOpen tag command f product cat).lin.Sound := by
  unfold State.opBatchOpen
  split
  · rename_i v declared hv _
    split
    · exact h
    · obtain ⟨hlt, hk, hi⟩ := Lineage.fillerVessel_some hv
      have hf : f < 8 := hi ▸ (h.shaped.vessels v hlt).fillerIndex
      exact State.openBatch_sound h hf (by rw [hv]; nofun) _ _ _ _ tag
  · exact h

end opening

end Sys2Proof.Machine

/-! What keeps a lineage state sound: the slots of a ring selected and closed, vessels cleaned. -/

namespace Sys2Proof.Machine

open Sys2Proof

/-! ## Rings -/

section rings

theorem Ring.content_setSlot (r : Ring) {k : Nat} (hk : k < 6) (c : Slot) :
    (r.setSlot k c).content + (r.slot k).remainingTotal = r.content + c.remainingTotal :=
  sum_map_vset Slot.remainingTotal r.slots hk c {}

theorem Ring.occupied_nil (r : Ring) : r.occupied = [] ↔ ∀ k, k < 6 → (r.slot k).tag = .empty := by
  have h := r.occupied_ne_nil
  rw [← not_iff_not]
  push Not
  exact h

theorem Ring.Ok.setSlot {r : Ring} (h : r.Ok) {k : Nat} (hk : k < 6) {c : Slot} (ht : c.tag = .empty → c.shares = [])
    (hc : r.content + c.remainingTotal ≤ (r.slot k).remainingTotal + 1000000000) : (r.setSlot k c).Ok := by
  refine ⟨fun j hj => ?_, ?_⟩
  · rw [Ring.slot_setSlot hk]
    split
    · exact ht
    · exact h.slots j hj
  · have := r.content_setSlot hk c
    omega

/-- A ring whose slots differ in their tags alone, EMPTY where they were. -/
structure Ring.Retagged (r x : Ring) : Prop where
  slot : ∀ k, k < 6 → ∃ t, x.slot k = { r.slot k with tag := t } ∧ (t = .empty ↔ (r.slot k).tag = .empty)

theorem Ring.keys_eq (r : Ring) : r.keys = (List.range 6).flatMap (fun k => (r.slot k).shares.map CompShare.key) := by
  rw [Ring.keys, toList_eq_map_vget r.slots {}, List.flatMap_map]
  rfl

variable {r x y : Ring}

theorem Ring.Retagged.refl (r : Ring) : r.Retagged r := ⟨fun _ _ => ⟨_, rfl, Iff.rfl⟩⟩

theorem Ring.Retagged.trans (h : r.Retagged x) (g : x.Retagged y) : r.Retagged y := by
  refine ⟨fun k hk => ?_⟩
  obtain ⟨t, ht, he⟩ := h.slot k hk
  obtain ⟨u, hu, hf⟩ := g.slot k hk
  rw [ht] at hu hf
  exact ⟨u, hu, hf.trans he⟩

theorem Ring.Retagged.keys (h : r.Retagged x) : x.keys = r.keys := by
  rw [Ring.keys_eq, Ring.keys_eq]
  refine List.flatMap_congr fun k hk => ?_
  obtain ⟨t, ht, _⟩ := h.slot k (List.mem_range.mp hk)
  rw [ht]

theorem Ring.Retagged.occupied (h : r.Retagged x) : r.occupied = [] → x.occupied = [] := by
  rw [Ring.occupied_nil, Ring.occupied_nil]
  intro hr k hk
  obtain ⟨t, ht, he⟩ := h.slot k hk
  rw [ht]
  exact he.mpr (hr k hk)

theorem Ring.Retagged.ok (h : r.Retagged x) (hr : r.Ok) : x.Ok := by
  refine ⟨fun k hk => ?_, ?_⟩
  · obtain ⟨t, ht, he⟩ := h.slot k hk
    rw [ht]
    exact fun e => hr.slots k hk (he.mp e)
  · have hcontent : ∀ r : Ring, r.content = ((List.range 6).map (fun k => (r.slot k).remainingTotal)).sum := fun r => by
      rw [Ring.content, toList_eq_map_vget r.slots {}, List.map_map]
      rfl
    have : x.content = r.content := by
      rw [hcontent, hcontent]
      refine congrArg List.sum (List.map_congr_left fun k hk => ?_)
      obtain ⟨t, ht, _⟩ := h.slot k (List.mem_range.mp hk)
      rw [ht]
      rfl
    exact this ▸ hr.content

theorem Ring.Retagged.tagSlot (r : Ring) {k : Nat} (hk : k < 6) {t : SlotTag} (ht : t ≠ .empty)
    (hr : (r.slot k).tag ≠ .empty) : r.Retagged (r.tagSlot k t) := by
  refine ⟨fun j _ => ?_⟩
  rw [Ring.slot_tagSlot r hk]
  split
  · rename_i e
    exact ⟨t, by rw [e], ⟨fun h => absurd h ht, fun h => absurd (e ▸ h) hr⟩⟩
  · exact ⟨_, rfl, Iff.rfl⟩

theorem Ring.Retagged.select (r : Ring) {k : Nat} (hk : k < 6) (hr : (r.slot k).tag ≠ .empty) : r.Retagged (r.select k) :=
  ⟨(Ring.Retagged.tagSlot r hk (t := .discharging) nofun hr).slot⟩

theorem Ring.Retagged.loadedAgain (r : Ring) : r.Retagged r.loadedAgain := by
  unfold Ring.loadedAgain
  split
  · exact .refl r
  · rename_i j hj
    obtain ⟨h6, ht⟩ := Ring.discharging_some hj
    exact .tagSlot r h6 nofun (ht ▸ nofun)

theorem Ring.Retagged.advance (r : Ring) (k : Nat) : r.Retagged (r.advance k) := by
  unfold Ring.advance
  split
  · exact .refl r
  · rename_i j hj
    have ht : (r.slot j).tag = .loaded := by simpa using List.find?_some hj
    exact .select r (mem_slotsFrom.mp (List.mem_of_find?_eq_some hj)) (ht ▸ nofun)

end rings

section shaped

variable {l : Lineage}

/-- A ring changed in its place, empty where it was. -/
theorem Shaped.setRing_kept (h : Shaped l) {b : Nat} (hb : b < 8) {r : Ring} (hr : r.Ok)
    (ho : (l.ring b).occupied = [] → r.occupied = []) : Shaped (l.setRing b r) :=
  h.setRing hr (fun hn => ho (h.freeRings b hb hn)) fun v hv hk hi hs => ho (hi ▸ h.cleaning v hv hk hs)

theorem Lineage.Sound.retagged (h : l.Sound) {b : Nat} (hb : b < 8) {r : Ring} (hr : (l.ring b).Retagged r) :
    (l.setRing b r).Sound :=
  h.of_shape rfl rfl (fun k => by
    have := l.outerKeys_setRing k hb r
    rw [hr.keys] at this
    omega) (h.shaped.setRing_kept hb (hr.ok (h.shaped.rings b hb)) hr.occupied)

end shaped

/-! ## Compartments (R68 to R71) -/

section compartments

variable {s : State} {v bay : Nat}

theorem Lineage.Sound.slotClosed {l : Lineage} (h : l.Sound) (hb : bay < 8) (v : Nat) {k : Nat} (hk : k < 6) :
    (l.slotClosed v bay k).Sound := by
  let m := l.withRecords (l.releaseAll (((l.ring bay).slot k).shares.map CompShare.key))
  have hm : Shaped m := h.shaped.of_parts rfl rfl rfl rfl rfl
  have hcleared : ((l.ring bay).setSlot k {}).Ok := (h.shaped.rings bay hb).setSlot hk (fun _ => rfl)
    ((h.shaped.rings bay hb).content.trans (Nat.le_add_left _ _))
  have hring : Shaped (m.setRing bay ((l.ring bay).setSlot k {})) := hm.setRing_kept hb hcleared fun ho => by
    rw [Ring.occupied_nil] at ho ⊢
    intro j hj
    rw [Ring.slot_setSlot hk]
    split
    · rfl
    · exact ho j hj
  have hshape : SameShape (m.setRing bay ((l.ring bay).setSlot k {})) (l.slotClosed v bay k) :=
    (Alike.setVessel (m.setRing bay ((l.ring bay).setSlot k {})) v _ _ _).toSameShape
  refine h.releasing (ks := ((l.ring bay).slot k).shares.map CompShare.key) rfl rfl (fun x _ => ?_) (hshape.shaped hring)
  rw [hshape.outerKeys]
  have hset := l.outerKeys_setRing x hb ((l.ring bay).setSlot k {})
  have hslot := (l.ring bay).keys_setSlot x hk {}
  change (l.setRing bay _).outerKeys.count x + _ = _
  rw [show ({} : Slot).shares.map CompShare.key = [] from rfl, List.count_nil] at hslot
  omega

variable (h : s.lin.Sound)
include h

theorem State.closeSlot_sound (hv : s.lin.bayVessel bay = some v) (reason : SlotReason) (tag : Nat) {k : Nat} (hk : k < 6) :
    (s.closeSlot v bay reason tag k).lin.Sound := by
  obtain ⟨hlt, hkind, hi⟩ := Lineage.bayVessel_some hv
  rw [State.closeSlot_eq hkind hi]
  exact h.slotClosed (hi ▸ (h.shaped.vessels v hlt).bayIndex) v hk

theorem State.finishSlot_sound (hv : s.lin.bayVessel bay = some v) (reason : SlotReason) (tag : Nat) {k : Nat} (hk : k < 6) :
    (s.finishSlot v bay reason tag k).lin.Sound := by
  obtain ⟨hlt, hkind, hi⟩ := Lineage.bayVessel_some hv
  have hb : bay < 8 := hi ▸ (h.shaped.vessels v hlt).bayIndex
  rw [State.finishSlot_eq hv]
  exact (h.slotClosed hb v hk).retagged hb (.advance _ k)

theorem State.opCompSelect_sound (tag bay tanker comp : Nat) : (s.opCompSelect tag bay tanker comp).lin.Sound := by
  cases hv : s.lin.bayVessel bay with
  | none =>
    rw [State.opCompSelect_none tag hv, State.raiseUnknown, State.raise_lin]
    exact h
  | some v =>
    cases hm : (s.lin.ring bay).matching tanker comp with
    | none =>
      rw [State.opCompSelect_unmatched hv tag hm, State.raiseUnknown, State.raise_lin]
      exact h
    | some k =>
      rw [State.opCompSelect_matched hv tag hm]
      split
      · exact h
      · obtain ⟨hlt, _, hi⟩ := Lineage.bayVessel_some hv
        obtain ⟨h6, ht, _⟩ := Ring.matching_some hm
        have hloaded : ((s.lin.ring bay).loadedAgain.slot k).tag ≠ .empty := fun e => by
          obtain ⟨t, hs, he⟩ := (Ring.Retagged.loadedAgain (s.lin.ring bay)).slot k h6
          rw [hs] at e
          exact ht (he.mp e)
        exact h.retagged (hi ▸ (h.shaped.vessels v hlt).bayIndex)
          ((Ring.Retagged.loadedAgain _).trans (.select _ h6 hloaded))

theorem State.opCompDone_sound (tag bay : Nat) : (s.opCompDone tag bay).lin.Sound := by
  cases hv : s.lin.bayVessel bay with
  | none =>
    rw [State.opCompDone_none tag hv, State.raiseUnknown, State.raise_lin]
    exact h
  | some v =>
    cases hm : (s.lin.ring bay).discharging with
    | none =>
      rw [State.opCompDone_idle hv tag hm, State.raiseUnknown, State.raise_lin]
      exact h
    | some k =>
      rw [State.opCompDone_discharging hv tag hm]
      exact State.finishSlot_sound h hv _ tag (Ring.discharging_some hm).1

theorem State.opCompReject_sound (tag bay tanker comp : Nat) : (s.opCompReject tag bay tanker comp).lin.Sound := by
  cases hv : s.lin.bayVessel bay with
  | none =>
    rw [State.opCompReject_none tag hv, State.raiseUnknown, State.raise_lin]
    exact h
  | some v =>
    cases hm : (s.lin.ring bay).matching tanker comp with
    | none =>
      rw [State.opCompReject_unmatched hv tag hm, State.raiseUnknown, State.raise_lin]
      exact h
    | some k =>
      rw [State.opCompReject_matched hv tag hm]
      split
      · exact State.finishSlot_sound h hv _ tag (Ring.matching_some hm).1
      · exact State.closeSlot_sound h hv _ tag (Ring.matching_some hm).1

end compartments

/-! ## Cleaning (R15 to R17, R76, R77, R112) -/

section cleaning

theorem flatMap_filter_of_nil {α β : Type} (p : α → Bool) (g : α → List β) {xs : List α}
    (h : ∀ x ∈ xs, p x = false → g x = []) : (xs.filter p).flatMap g = xs.flatMap g := by
  induction xs with
  | nil => rfl
  | cons x xs ih =>
    have hxs := ih fun y hy => h y (List.mem_cons_of_mem x hy)
    by_cases hp : p x = true
    · rw [List.filter_cons_of_pos hp, List.flatMap_cons, List.flatMap_cons, hxs]
    · rw [List.filter_cons_of_neg hp, List.flatMap_cons, h x List.mem_cons_self (Bool.eq_false_iff.mpr hp), hxs]
      rfl

/-- A ring's keys are those of its slots that are not EMPTY. -/
theorem Ring.Ok.keysIn_occupied {r : Ring} (h : r.Ok) : r.keysIn r.occupied = r.keys := by
  rw [Ring.keys_eq, Ring.keysIn, Ring.occupied]
  refine flatMap_filter_of_nil _ _ fun k hk ht => ?_
  rw [h.slots k (List.mem_range.mp hk) (by simpa using ht)]
  rfl

theorem Ring.cleared_ok : Ring.cleared.Ok := ⟨fun k _ _ => by rw [Ring.cleared, reset_slot], by decide⟩

theorem Ring.cleared_occupied : Ring.cleared.occupied = [] := by decide

theorem Ring.cleared_keys : Ring.cleared.keys = [] := by decide

theorem Vessel.Ok.emptied {x : Vessel} (h : x.Ok) {st : VesselState} {c : Cat} {u d : Bool} :
    Vessel.Ok { x with state := st, list := [], cat := c, uncertain := u, suspect := d } :=
  ⟨fun hk => ⟨listBounded_nil, fun _ => rfl, (h.store hk).2.2⟩, fun _ => rfl, h.bayIndex, h.fillerIndex⟩

theorem Vessel.Ok.restate {x : Vessel} (h : x.Ok) (hk : x.kind = .bay) {st : VesselState} {u d : Bool} :
    Vessel.Ok { x with state := st, uncertain := u, suspect := d } :=
  ⟨fun e => absurd (hk.symm.trans e) nofun, h.other, h.bayIndex, h.fillerIndex⟩

variable {l : Lineage} {v : Nat}

/-- A BAY in cleaning, the keys of its ring released. -/
theorem Lineage.Sound.bayCleaned (h : l.Sound) (hk : (l.vessel v).kind = .bay) :
    ((l.withRecords (l.releaseAll (l.ring (l.vessel v).bayIndex).keys)).bayCleaned v (l.vessel v).bayIndex).Sound := by
  have hv : v < 64 := l.vessel_lt (by rw [hk]; decide)
  have hb : (l.vessel v).bayIndex < 8 := (h.shaped.vessels v hv).bayIndex
  let m := l.withRecords (l.releaseAll (l.ring (l.vessel v).bayIndex).keys)
  have hm : Shaped m := h.shaped.of_parts rfl rfl rfl rfl rfl
  have hring := hm.setRing_kept hb Ring.cleared_ok fun _ => Ring.cleared_occupied
  refine h.releasing (ks := (l.ring (l.vessel v).bayIndex).keys) rfl rfl (fun x _ => ?_)
    (hring.setVessel hv ((h.shaped.vessels v hv).restate hk) rfl rfl rfl fun _ _ => ?_)
  · have hset := (l.setRing (l.vessel v).bayIndex Ring.cleared).outerKeys_setVessel x hv
      { l.vessel v with state := .cleaning, uncertain := false, suspect := false }
    have hclear := l.outerKeys_setRing x hb Ring.cleared
    rw [Ring.cleared_keys] at hclear
    exact (congrArg (· + _) (Nat.add_right_cancel hset)).trans hclear
  · exact (congrArg Ring.occupied (Lineage.setRing_same hb _)).trans Ring.cleared_occupied

variable {s : State} (h : s.lin.Sound) (tag : Nat)
include h

theorem State.storeCipStart_sound (hk : (s.lin.vessel v).kind = .store) : (s.storeCipStart tag v).lin.Sound := by
  have hv : v < 64 := s.lin.vessel_lt (by rw [hk]; decide)
  by_cases hc : (s.lin.vessel v).state = .cleaning
  · have : s.storeCipStart tag v = s.write tag (.vessel { vessel := v, action := .cipStart, result := .busy }) :=
      if_pos (beq_iff_eq.mpr hc)
    rw [this]
    exact h
  · rw [State.storeCipStart_eq tag v hc]
    let m := s.lin.withRecords (s.lin.releaseAll (keysOf (s.lin.vessel v).list))
    have hm : Shaped m := h.shaped.of_parts rfl rfl rfl rfl rfl
    refine h.releasing (ks := keysOf (s.lin.vessel v).list) rfl rfl (fun x _ => ?_)
      (hm.setVessel hv (h.shaped.vessels v hv).emptied rfl rfl rfl fun e => by cases hk.symm.trans e)
    exact s.lin.outerKeys_setVessel x hv { s.lin.vessel v with
      state := .cleaning, list := [], cat := none, uncertain := false, suspect := false }

theorem State.storeCipEnd_sound (hk : (s.lin.vessel v).kind = .store) : (s.storeCipEnd tag v).lin.Sound := by
  have hv : v < 64 := s.lin.vessel_lt (by rw [hk]; decide)
  unfold State.storeCipEnd
  dsimp only
  split
  · exact h
  · rename_i hs
    have hnil : (s.lin.vessel v).list = [] := ((h.shaped.vessels v hv).store hk).2.1 (by simpa using hs)
    refine h.of_shape rfl rfl (fun x => ?_)
      (h.shaped.setVessel hv (h.shaped.vessels v hv).emptied rfl rfl rfl fun e => by cases hk.symm.trans e)
    have hset := s.lin.outerKeys_setVessel x hv { s.lin.vessel v with
      state := .holding, list := [], cat := none, uncertain := false, suspect := false }
    rw [hnil] at hset
    exact Nat.add_right_cancel hset

theorem State.bayCipStart_sound (hk : (s.lin.vessel v).kind = .bay) : (s.bayCipStart tag v).lin.Sound := by
  have hv : v < 64 := s.lin.vessel_lt (by rw [hk]; decide)
  by_cases hc : (s.lin.vessel v).state = .cleaning
  · have : s.bayCipStart tag v = s.write tag (.vessel { vessel := v, action := .cipStart, result := .busy }) :=
      if_pos (beq_iff_eq.mpr hc)
    rw [this]
    exact h
  · rw [State.bayCipStart_eq tag v hk hc,
      (h.shaped.rings _ (h.shaped.vessels v hv).bayIndex).keysIn_occupied]
    exact h.bayCleaned hk

theorem State.bayCipEnd_sound (hk : (s.lin.vessel v).kind = .bay) : (s.bayCipEnd tag v).lin.Sound := by
  have hv : v < 64 := s.lin.vessel_lt (by rw [hk]; decide)
  have hb : (s.lin.vessel v).bayIndex < 8 := (h.shaped.vessels v hv).bayIndex
  unfold State.bayCipEnd
  dsimp only
  split
  · rename_i hs
    have hring := h.shaped.rings _ hb
    have hnil : (s.lin.ring (s.lin.vessel v).bayIndex).keys = [] := by
      rw [← hring.keysIn_occupied, h.shaped.cleaning v hv hk (beq_iff_eq.mp hs)]
      rfl
    have hm := h.shaped.setRing_kept hb Ring.cleared_ok fun _ => Ring.cleared_occupied
    refine h.of_shape rfl rfl (fun x => ?_)
      (hm.setVessel hv ((h.shaped.vessels v hv).restate hk) rfl rfl rfl fun _ => nofun)
    have hset := (s.lin.setRing (s.lin.vessel v).bayIndex Ring.cleared).outerKeys_setVessel x hv
      { s.lin.vessel v with state := .holding, uncertain := false, suspect := false }
    have hclear := s.lin.outerKeys_setRing x hb Ring.cleared
    rw [Ring.cleared_keys, hnil] at hclear
    exact (Nat.add_right_cancel hset).trans (Nat.add_right_cancel hclear)
  · exact h

theorem State.fillerCipStart_sound (v : Nat) : (s.fillerCipStart tag v).lin.Sound := by
  unfold State.fillerCipStart
  dsimp only
  split
  · exact h
  · exact h.setFiller rfl nofun
  · exact State.closeBatch_sound h _ _ tag _ nofun

theorem State.fillerCipEnd_sound (v : Nat) : (s.fillerCipEnd tag v).lin.Sound := by
  unfold State.fillerCipEnd
  dsimp only
  split
  · exact h.setFiller rfl nofun
  · exact h

theorem State.opCipStart_sound (v : Nat) : (s.opCipStart tag v).lin.Sound := by
  unfold State.opCipStart
  cases hk : (s.lin.vessel v).kind with
  | unconfigured => exact h
  | store => exact State.storeCipStart_sound h tag hk
  | bay => exact State.bayCipStart_sound h tag hk
  | filler => exact State.fillerCipStart_sound h tag v

theorem State.opCipEnd_sound (v : Nat) : (s.opCipEnd tag v).lin.Sound := by
  unfold State.opCipEnd
  cases hk : (s.lin.vessel v).kind with
  | unconfigured => exact h
  | store => exact State.storeCipEnd_sound h tag hk
  | bay => exact State.bayCipEnd_sound h tag hk
  | filler => exact State.fillerCipEnd_sound h tag v

end cleaning

end Sys2Proof.Machine

/-! What keeps a lineage state sound: a collection taken into a compartment (R63 to R67). -/

namespace Sys2Proof.Machine

open Sys2Proof

section taking

variable (r : Ring) {k : Nat} (i : ManifestItem) (sh : CompShare) (now : TimeStamp)

/-- A ring that takes an item in: a share joins a slot, which is not EMPTY then. -/
theorem Ring.taking_retagged (hk : k < 6) {claims : Bool} (hc : claims = true → (r.slot k).shares = [])
    (ha : claims = false → (r.slot k).tag ≠ .empty) : ∃ c : Slot, c.tag ≠ .empty ∧
      c.shares = (r.slot k).shares ++ [sh] ∧ (r.setSlot k c).Retagged (r.taking k i sh now claims) := by
  cases claims with
  | false => exact ⟨{ r.slot k with shares := (r.slot k).shares ++ [sh] }, ha rfl, rfl, Ring.Retagged.refl (r.append k sh)⟩
  | true =>
    let c : Slot := { tag := .loaded, tanker := i.tanker, comp := i.comp, shares := [sh], drawn := 0, openTime := now }
    have hslot : (r.setSlot k c).slot k = c := by rw [Ring.slot_setSlot hk, if_pos rfl]
    have hselect : (r.setSlot k c).Retagged ((r.setSlot k c).select k) :=
      .select _ hk fun e => by
        rw [hslot] at e
        cases e
    refine ⟨c, nofun, by rw [hc rfl]; rfl, ?_⟩
    change (r.setSlot k c).Retagged (r.claim k i sh now)
    unfold Ring.claim
    cases r.discharging with
    | none => exact ⟨hselect.slot⟩
    | some d => exact ⟨(Ring.Retagged.refl (r.setSlot k c)).slot⟩

/-- What a ring holds that has taken an item in. -/
structure Ring.Takes (r x : Ring) (sh : CompShare) : Prop where
  keys : ∀ y, x.keys.count y = r.keys.count y + [sh.key].count y
  ok : x.Ok

theorem Ring.taking_takes (hr : r.Ok) (hk : k < 6) {claims : Bool} (hc : claims = true → (r.slot k).tag = .empty)
    (ha : claims = false → (r.slot k).tag ≠ .empty) (hv : r.content + sh.remaining ≤ 1000000000) :
    r.Takes (r.taking k i sh now claims) sh := by
  obtain ⟨c, ht, hs, hx⟩ := r.taking_retagged i sh now hk (fun h => hr.slots k hk (hc h)) ha
  have htotal : c.remainingTotal = (r.slot k).remainingTotal + sh.remaining := by
    rw [Slot.remainingTotal, hs, List.map_append, List.sum_append]
    rfl
  refine ⟨fun y => ?_, hx.ok (hr.setSlot hk (fun e => absurd e ht) (by rw [htotal]; omega))⟩
  have hset := r.keys_setSlot y hk c
  rw [hs, List.map_append, List.count_append] at hset
  rw [hx.keys]
  change _ = _ + List.count y [sh.key] 
  change _ = _ + (_ + List.count y [sh.key]) at hset
  omega

end taking

section admission

variable {l : Lineage} {v : Nat} {i : ManifestItem} {c : CollRec} {r : Ring}

/-- A ring with a share of a new collection. -/
theorem Lineage.Sound.takenIn (h : l.Sound) (hv : l.bayVessel i.bay = some v) (hs : (l.vessel v).state ≠ .cleaning)
    (hroom : l.colls.length < 2048) (hserial : c.serial = l.issueColl) (hrefs : c.refs = 1) {sh : CompShare}
    (hsh : sh.key = .coll c.serial) (hr : (l.ring i.bay).Takes r sh) : (l.takenIn v i c r).Sound := by
  obtain ⟨hlt, hkind, hi⟩ := Lineage.bayVessel_some hv
  have hb : i.bay < 8 := hi ▸ (h.shaped.vessels v hlt).bayIndex
  have hfree : l.refsOf (.coll c.serial) = none := by
    rw [hserial]
    exact Lineage.issueColl_free h.collRoom
  let m : Lineage := { l.addColl c with collNext := nextSerial c.serial }.setRing i.bay r
  have hm : Shaped m := by
    refine (h.shaped.of_parts (k := { l.addColl c with collNext := nextSerial c.serial }) rfl rfl rfl rfl rfl).setRing hr.ok
      (fun hn => by cases hv.symm.trans hn) fun u hu hku hiu hsu => ?_
    have : u = v := h.shaped.bayIndices u v hu hlt hku hkind (hiu.trans hi.symm)
    exact absurd (this ▸ hsu) hs
  have hshape : SameShape m (l.takenIn v i c r) := (Alike.setVessel m v _ _ _).toSameShape
  have hkeys : ∀ x, (l.takenIn v i c r).outerKeys.count x = l.outerKeys.count x + [Key.coll c.serial].count x := fun x => by
    rw [hshape.outerKeys]
    have h1 := l.outerKeys_setRing x hb r
    have h2 := hr.keys x
    rw [hsh] at h2
    change (l.setRing i.bay r).outerKeys.count x = _
    omega
  have hzero := h.tallied.listed (.coll c.serial) (fun e => by cases e) hfree
  rw [List.count_append] at hzero
  have ht : Tallied (l.addColl c) (l.takenIn v i c r).outerKeys [] := by
    refine h.tallied.addColl hfree (fun x _ hne => ?_) ?_
    · have : [Key.coll c.serial].count x = 0 := List.count_eq_zero.mpr (by simpa using hne)
      rw [hkeys, this]
      rfl
    · rw [hkeys, hrefs, List.count_singleton_self, List.count_nil]
      omega
  have hsame : SameCounts (l.addColl c) (l.takenIn v i c r) := .of_eq rfl rfl
  refine ⟨ht.of_counts hsame, fun x n hx => ?_, ?_, h.blendRoom, hshape.shaped hm⟩
  · rw [hsame.refs, l.refsOf_addColl hfree] at hx
    split at hx
    · have : c.refs = n := Option.some.inj hx
      omega
    · exact h.positive x n hx
  · change (insertLowest c 0 l.colls).length ≤ 2048
    rw [insertLowest_length]
    exact hroom

variable {s : State} (h : s.lin.Sound)
include h

theorem State.admitOrRefuse_sound (tag : Nat) (taken : TimeStamp) {k : Nat} {claims : Bool} (hv : s.lin.bayVessel i.bay = some v)
    (hs : (s.lin.vessel v).state ≠ .cleaning) (hk : k < 6)
    (hc : claims = true → ((s.lin.ring i.bay).slot k).tag = .empty)
    (ha : claims = false → ((s.lin.ring i.bay).slot k).tag ≠ .empty) :
    (s.admitOrRefuse taken v k i claims tag).lin.Sound := by
  rw [State.admitOrRefuse_eq]
  split
  · rw [State.raise_lin]
    exact h
  · rename_i hover
    split
    · rw [State.raise_lin]
      exact h
    · rename_i hroom
      obtain ⟨hlt, hkind, hi⟩ := Lineage.bayVessel_some hv
      have hb : i.bay < 8 := hi ▸ (h.shaped.vessels v hlt).bayIndex
      rw [State.takeIn_eq _ _ _ _ _ _ hkind hi]
      exact h.takenIn hv hs (Nat.lt_of_not_le hroom) rfl rfl rfl
        (Ring.taking_takes _ i ((s.newColl taken i).share i.vol) s.now (h.shaped.rings _ hb) hk hc ha
          (Nat.le_of_not_lt hover))

theorem State.opManifest_sound (tag : Nat) (taken : TimeStamp) (i : ManifestItem) : (s.opManifest tag taken i).lin.Sound := by
  have hraise : ∀ c, (s.raise tag none c).lin.Sound := fun c => by
    rw [State.raise_lin]
    exact h
  cases hv : s.lin.bayVessel i.bay with
  | none =>
    rw [State.opManifest_noBay tag taken hv]
    exact hraise _
  | some v =>
    cases hi : i.valid with
    | false =>
      rw [State.opManifest_invalid tag taken hv hi]
      exact hraise _
    | true =>
      cases hc : s.lin.isCleaning v with
      | true =>
        rw [State.opManifest_cleaning tag taken hv hi hc]
        exact hraise _
      | false =>
        obtain ⟨_, hkind, _⟩ := Lineage.bayVessel_some hv
        have hs : (s.lin.vessel v).state ≠ .cleaning := fun e => by
          rw [(Lineage.isCleaning_other (hkind ▸ nofun)).mpr e] at hc
          cases hc
        cases hm : (s.lin.ring i.bay).matching i.tanker i.comp with
        | some k =>
          rw [State.opManifest_matched tag taken hv hi hc hm]
          obtain ⟨hk, ht, _⟩ := Ring.matching_some hm
          split
          · exact hraise _
          · exact State.admitOrRefuse_sound h tag taken hv hs hk nofun fun _ => ht
        | none =>
          cases hf : (s.lin.ring i.bay).claimable with
          | none =>
            rw [State.opManifest_full tag taken hv hi hc hm hf]
            exact hraise _
          | some k =>
            rw [State.opManifest_claims tag taken hv hi hc hm hf]
            have hk : k < 6 := mem_slotsFrom.mp (List.mem_of_find?_eq_some hf)
            exact State.admitOrRefuse_sound h tag taken hv hs hk (fun _ => by simpa using List.find?_some hf) nofun

end admission

end Sys2Proof.Machine

/-! What keeps a lineage state sound: a content written (R18, R19). -/

namespace Sys2Proof.Machine

open Sys2Proof

/-! ## Opaque records (R19, R49) -/

/-- The state `m` has a record for the key `k`, at 0 where it is new; the rest stands as in `l`. -/
structure Opens (l : Lineage) (k : Key) (m : Lineage) : Prop where
  refs : ∀ x, m.refsOf x = if x = k ∧ x ≠ .unknown then some ((l.refsOf x).getD 0) else l.refsOf x
  tallied : ∀ held, Tallied l held [] → Tallied m held []
  colls : m.colls.length ≤ l.colls.length + if l.newCollKey k then 1 else 0
  blends : m.blends.length ≤ l.blends.length + if l.newBlendKey k then 1 else 0

section entries

variable (l : Lineage)

theorem Opens.of_known {k : Key} (h : k = .unknown ∨ l.refsOf k ≠ none) : Opens l k l := by
  refine ⟨fun x => ?_, fun _ h => h, Nat.le_add_right _ _, Nat.le_add_right _ _⟩
  split
  · rename_i hx
    obtain ⟨n, hn⟩ := Option.ne_none_iff_exists'.mp (h.resolve_left (hx.1 ▸ hx.2))
    rw [hx.1, hn]
    rfl
  · rfl

theorem Lineage.makeOpaque_opens (e : WriteEntry) : Opens l e.share.key (l.makeOpaque e) := by
  unfold Lineage.makeOpaque
  cases hk : e.share.key with
  | unknown => exact .of_known l (.inl rfl)
  | coll n =>
    dsimp only
    split
    · rename_i hr
      exact .of_known l (.inr ((l.resident_iff _).mp hr))
    · rename_i hr
      have hfree : l.refsOf (.coll n) = none := not_not.mp (mt (l.resident_iff _).mpr hr)
      refine ⟨fun x => ?_, fun held ht => ht.addColl hfree (fun _ _ _ => rfl) ?_, ?_, Nat.le_add_right _ _⟩
      · rw [l.refsOf_addColl hfree]
        split
        · rename_i hx
          rw [if_pos ⟨hx, hx ▸ nofun⟩, hx, hfree]
          rfl
        · rename_i hx
          rw [if_neg fun h => hx h.1]
      · have := ht.listed (.coll n) (fun e => by cases e) hfree
        rw [List.count_append] at this
        change 0 + 0 = held.count (.coll n)
        omega
      · rw [if_pos (show l.newCollKey (.coll n) = true by simpa [Lineage.newCollKey] using hr)]
        exact (insertLowest_length _ l.colls 0).le
  | blend n =>
    dsimp only
    split
    · rename_i hr
      exact .of_known l (.inr ((l.resident_iff _).mp hr))
    · rename_i hr
      have hfree : l.refsOf (.blend n) = none := not_not.mp (mt (l.resident_iff _).mpr hr)
      refine ⟨fun x => ?_, fun held ht => ht.addBlend hfree rfl rfl fun k hk => absurd hk List.not_mem_nil,
        Nat.le_add_right _ _, ?_⟩
      · rw [l.refsOf_addBlend hfree]
        split
        · rename_i hx
          rw [if_pos ⟨hx, hx ▸ nofun⟩, hx, hfree]
          rfl
        · rename_i hx
          rw [if_neg fun h => hx h.1]
      · rw [if_pos (show l.newBlendKey (.blend n) = true by simpa [Lineage.newBlendKey] using hr)]
        exact (insertLowest_length _ l.blends 0).le

variable {l} in
/-- What is new after a record has been placed was new before. -/
theorem Opens.still_new {k : Key} {m : Lineage} (h : Opens l k m) (x : Key) :
    (m.newCollKey x = true → l.newCollKey x = true) ∧ (m.newBlendKey x = true → l.newBlendKey x = true) := by
  have hres : m.resident x = false → x ≠ .unknown → l.resident x = false := fun hm hu => by
    refine Bool.eq_false_iff.mpr fun hl => Bool.eq_false_iff.mp hm ?_
    rw [Lineage.resident_iff] at hl ⊢
    rw [h.refs]
    split
    · nofun
    · exact hl
  cases x with
  | unknown => exact ⟨nofun, nofun⟩
  | coll n =>
    refine ⟨fun hm => ?_, nofun⟩
    simp only [Lineage.newCollKey, Bool.not_eq_true'] at hm ⊢
    exact hres hm nofun
  | blend n =>
    refine ⟨nofun, fun hm => ?_⟩
    simp only [Lineage.newBlendKey, Bool.not_eq_true'] at hm ⊢
    exact hres hm nofun

/-- The records of a list of entries. -/
structure OpensAll (l : Lineage) (ks : List Key) (m : Lineage) : Prop where
  refs : ∀ x, m.refsOf x = if x ∈ ks ∧ x ≠ .unknown then some ((l.refsOf x).getD 0) else l.refsOf x
  tallied : ∀ held, Tallied l held [] → Tallied m held []
  colls : m.colls.length ≤ l.colls.length + ks.countP l.newCollKey
  blends : m.blends.length ≤ l.blends.length + ks.countP l.newBlendKey

variable {l} in
theorem OpensAll.cons {k : Key} {ks : List Key} {m n : Lineage} (h : Opens l k m) (g : OpensAll m ks n) :
    OpensAll l (k :: ks) n := by
  refine ⟨fun x => ?_, fun held ht => g.tallied held (h.tallied held ht), ?_, ?_⟩
  · rw [g.refs, h.refs]
    by_cases hu : x = .unknown
    · rw [if_neg (not_and_not_right.mpr fun _ => hu), if_neg (not_and_not_right.mpr fun _ => hu),
        if_neg (not_and_not_right.mpr fun _ => hu)]
    · by_cases hx : x = k
      · rw [if_pos (c := x = k ∧ _) ⟨hx, hu⟩, if_pos (c := x ∈ k :: ks ∧ _) ⟨hx ▸ List.mem_cons_self, hu⟩]
        exact ite_self _
      · rw [if_neg (c := x = k ∧ _) fun e => hx e.1]
        simp only [List.mem_cons, hx, false_or]
  · have hmono : ks.countP m.newCollKey ≤ ks.countP l.newCollKey :=
      List.countP_mono_left fun x _ => (h.still_new x).1
    have h1 := h.colls
    have h2 := g.colls
    rw [List.countP_cons]
    omega
  · have hmono : ks.countP m.newBlendKey ≤ ks.countP l.newBlendKey :=
      List.countP_mono_left fun x _ => (h.still_new x).2
    have h1 := h.blends
    have h2 := g.blends
    rw [List.countP_cons]
    omega

theorem Lineage.makeOpaques_open (es : List WriteEntry) :
    OpensAll l (es.map (fun e => e.share.key)) (es.foldl Lineage.makeOpaque l) := by
  induction es generalizing l with
  | nil => exact ⟨fun x => (if_neg fun e => List.not_mem_nil e.1).symm, fun _ h => h, Nat.le_refl _, Nat.le_refl _⟩
  | cons e es ih => exact .cons (l.makeOpaque_opens e) (ih _)

end entries

theorem SameRecords.lengths {l k : Lineage} (h : SameRecords l k) :
    k.colls.length = l.colls.length ∧ k.blends.length = l.blends.length := by
  have hc := congrArg List.length h.collSerials
  have hb := congrArg List.length h.blendSerials
  rw [List.length_map, List.length_map] at hc
  rw [Lineage.blendSerials, Lineage.blendSerials, List.length_map, List.length_map] at hb
  exact ⟨hc, hb⟩

/-! ## Keys of a write -/

theorem rawKey_toKey_inj {a b : RawKey} (ha : a.toKey ≠ none) (h : a.toKey = b.toKey) : a = b := by
  obtain ⟨ka, na⟩ := a
  obtain ⟨kb, nb⟩ := b
  unfold RawKey.toKey at h ha
  dsimp only at h ha
  grind

section write

variable {l : Lineage} {w : WriteArgs}

theorem writeArgs_keysOf_list (w : WriteArgs) : keysOf w.list = w.entries.map (fun e => e.share.key) := List.map_map ..

theorem writeArgs_list_bounded {capacity : Nat} (h : w.valid capacity = true) (hc : capacity ≤ 1000000000) :
    ListBounded w.list := by
  obtain ⟨hlen, hnodup, hentries, _, _, htotal, _⟩ := (writeArgs_valid_iff w capacity).mp h
  refine ⟨⟨(List.length_map _).le.trans hlen, ?_, fun x hx => ?_⟩, htotal.trans hc⟩
  · have hmap : keysOf w.list = (w.entries.map WriteEntry.key).map (fun k => k.toKey.getD .unknown) := by
      rw [writeArgs_keysOf_list, List.map_map]
      rfl
    have hsome : ∀ k ∈ w.entries.map WriteEntry.key, ∃ x, k.toKey = some x := fun k hk => by
      obtain ⟨e, he, rfl⟩ := List.mem_map.mp hk
      exact Option.ne_none_iff_exists'.mp (hentries e he).1
    rw [hmap]
    refine hnodup.map_on fun a ha b hb hab => ?_
    obtain ⟨x, hx⟩ := hsome a ha
    obtain ⟨y, hy⟩ := hsome b hb
    rw [hx, hy] at hab
    exact rawKey_toKey_inj (by rw [hx]; nofun) (hx.trans ((congrArg some hab).trans hy.symm))
  · obtain ⟨e, he, rfl⟩ := List.mem_map.mp hx
    exact Nat.pos_of_ne_zero (hentries e he).2.1

/-- A STORE with a content written. -/
theorem Lineage.Sound.applyWrite (h : l.Sound) (hk : (l.vessel w.vessel).kind = .store)
    (hw : w.valid (l.vessel w.vessel).capacity = true) (hroom : l.roomFor (keysOf w.list) = true) :
    (l.applyWrite w).Sound := by
  have hv : w.vessel < 64 := l.vessel_lt (by rw [hk]; decide)
  have hold := h.shaped.vessels w.vessel hv
  rw [Lineage.applyWrite_eq _ _ hk]
  let y : Vessel := { l.vessel w.vessel with
    state := .holding, list := w.list, cat := (catOfByte w.cat).getD none, uncertain := decide (w.uncertain = 1),
    suspect := (l.writeRecords w).listSuspect (keysOf w.list) }
  let m := w.entries.foldl Lineage.makeOpaque l
  have hopen : OpensAll l (keysOf w.list) m := by
    rw [writeArgs_keysOf_list]
    exact l.makeOpaques_open w.entries
  have hnew : Tallied m (l.outerKeys ++ keysOf w.list) (keysOf w.list) := by
    refine (hopen.tallied _ h.tallied).congr (fun k _ => ?_) fun k hu hn => ?_
    · rw [List.count_append, List.count_nil, Nat.add_zero]
    · have hout := (hopen.tallied _ h.tallied).listed k hu hn
      rw [List.count_append] at hout ⊢
      have hnot : k ∉ keysOf w.list := fun hm => by
        rw [hopen.refs, if_pos ⟨hm, hu⟩] at hn
        cases hn
      rw [List.count_eq_zero.mpr hnot]
      omega
  have hkeys : ∀ k, (l.setVessel w.vessel y).outerKeys.count k + (keysOf (l.vessel w.vessel).list).count k =
      l.outerKeys.count k + (keysOf w.list).count k := fun k => l.outerKeys_setVessel k hv y
  have hheld : Tallied (m.addRefs (keysOf w.list))
      (keysOf (l.vessel w.vessel).list ++ (l.setVessel w.vessel y).outerKeys) [] := hnew.addRefs.perm fun k _ => by
    have := hkeys k
    rw [List.count_append, List.count_append]
    omega
  have hpos : (m.addRefs (keysOf w.list)).Positive := fun k r hr => by
    rw [Lineage.refsOf_addRefs] at hr
    obtain ⟨n, hn, rfl⟩ := Option.map_eq_some_iff.mp hr
    by_cases hm : k ∈ keysOf w.list
    · exact Nat.add_pos_right _ (List.count_pos_iff.mpr hm)
    · rw [hopen.refs, if_neg fun e => hm e.1] at hn
      exact Nat.add_pos_left (h.positive k n hn) _
  obtain ⟨ht, hp, hbl, hcl⟩ := Tallied.releaseAll _ _ hheld hpos
  have hrooms := (l.roomFor_iff _).mp hroom
  rw [max_eq_left h.collRoom, max_eq_left h.blendRoom] at hrooms
  obtain ⟨hcolls, hblends⟩ := hrooms
  have hlen := SameRecords.lengths (m.addRefs_sameRecords (keysOf w.list))
  have hshape : Shaped ((l.writeRecords w).setVessel w.vessel y) := by
    rw [l.writeRecords_eq w]
    refine (h.shaped.of_parts (k := l.withRecords (l.writeRecords w)) rfl rfl rfl rfl rfl).setVessel (y := y) hv ?_ rfl rfl
      rfl fun e => ?_
    · exact ⟨fun _ => ⟨writeArgs_list_bounded hw (hold.store hk).2.2, fun e => absurd rfl e, (hold.store hk).2.2⟩,
        fun e => absurd hk e, hold.bayIndex, hold.fillerIndex⟩
    · cases hk.symm.trans e
  have hout : ((l.writeRecords w).setVessel w.vessel y).outerKeys = (l.setVessel w.vessel y).outerKeys := by
    rw [l.writeRecords_eq w]
    rfl
  refine ⟨hout ▸ ht.of_counts (.of_eq rfl rfl), fun k r hr => hp k r hr, ?_, ?_, hshape⟩
  · have h1 := hopen.colls
    rw [List.countP_eq_length_filter] at h1
    exact hcl.trans (by omega)
  · have h1 := hopen.blends
    rw [List.countP_eq_length_filter] at h1
    exact hbl.trans (by omega)

theorem State.opVesselWrite_sound {s : State} (h : s.lin.Sound) (tag : Nat) (w : WriteArgs) :
    (s.opVesselWrite tag w).lin.Sound := by
  have hcheck := s.lin.checkWrite_eq w
  by_cases hdone : s.lin.checkWrite w = .done
  · have hop : (s.opVesselWrite tag w).lin = s.lin.applyWrite w := by
      unfold State.opVesselWrite
      dsimp only
      rw [if_pos (beq_iff_eq.mpr hdone)]
      rfl
    rw [hop]
    rw [hdone] at hcheck
    split at hcheck
    · cases hcheck
    · rename_i hk
      split at hcheck
      · cases hcheck
      · split at hcheck
        · cases hcheck
        · rename_i hw
          split at hcheck
          · cases hcheck
          · rename_i hroom
            exact h.applyWrite (not_not.mp hk) (not_not.mp hw) (not_not.mp hroom)
  · rw [State.opVesselWrite_refused rfl hdone]
    exact h

end write

end Sys2Proof.Machine

/-! Transfers and references (R33, R38 to R42): portions, the merge of lists, and the blends a merge forms. -/

namespace Sys2Proof.Machine

open Sys2Proof

/-! ## Portions -/

/-- Shares above 0 of U-0 and of keys that are known. -/
def Backed (known : Key → Prop) (ps : List Share) : Prop := ∀ p ∈ ps, 0 < p.vol ∧ (p.key = .unknown ∨ known p.key)

section portions

variable {known : Key → Prop} {ps xs : List Share}

theorem Backed.mono {known' : Key → Prop} (h : Backed known ps) (hk : ∀ k, known k → known' k) :
    Backed known' ps := fun p hp => ⟨(h p hp).1, (h p hp).2.imp_right (hk _)⟩

theorem Backed.keys (h : Backed known ps) {k : Key} (hk : k ∈ keysOf ps) : k = .unknown ∨ known k := by
  obtain ⟨p, hp, rfl⟩ := List.mem_map.mp hk
  exact (h p hp).2

theorem Backed.filter (h : Backed known ps) (q : Share → Bool) : Backed known (ps.filter q) :=
  fun p hp => h p (List.mem_filter.mp hp).1

theorem Backed.append (h : Backed known xs) (g : Backed known ps) : Backed known (xs ++ ps) :=
  fun p hp => (List.mem_append.mp hp).elim (h p) (g p)

theorem Backed.singleton {p : Share} (hv : 0 < p.vol) (hk : p.key = .unknown ∨ known p.key) : Backed known [p] :=
  fun q hq => by
    rw [List.mem_singleton.mp hq]
    exact ⟨hv, hk⟩

theorem Backed.total_pos (h : Backed known ps) (hne : ps ≠ []) : 0 < total ps := by
  cases ps with
  | nil => exact absurd rfl hne
  | cons p ps =>
    rw [total_cons]
    exact Nat.add_pos_left (h p List.mem_cons_self).1 _

theorem Backed.portionsOf {ks : List Key} (h : ∀ k ∈ ks, k = .unknown ∨ known k) (vs : List Nat) :
    Backed known (portionsOf ks vs) := fun p hp => by
  obtain ⟨hm, hv⟩ := List.mem_filter.mp hp
  obtain ⟨⟨k, n⟩, hz, rfl⟩ := List.mem_map.mp hm
  exact ⟨Nat.pos_of_ne_zero (by simpa using hv), h k (List.of_mem_zip hz).1⟩

theorem Backed.unknownLast (h : Backed known ps) (extra : Nat) : Backed known (unknownLast ps extra) := by
  unfold Sys2Proof.Machine.unknownLast
  dsimp only
  split
  · exact h.filter _
  · rename_i hu
    exact (h.filter _).append (.singleton (Nat.pos_of_ne_zero (by simpa using hu)) (.inl rfl))

theorem Backed.scaleTo (h : Backed known ps) (room : Nat) : Backed known (scaleTo room ps) := by
  unfold Sys2Proof.Machine.scaleTo
  split
  · exact fun _ hp => absurd hp List.not_mem_nil
  · exact .portionsOf (fun k hk => h.keys hk) _

theorem Backed.ceilingCut (h : Backed known ps) (content : Nat) : Backed known (ceilingCut content ps).1 := by
  unfold Sys2Proof.Machine.ceilingCut
  split
  · exact h
  · exact h.scaleTo _

theorem Backed.addPortion (h : Backed known xs) {p : Share} (hv : 0 < p.vol) (hk : p.key = .unknown ∨ known p.key) :
    Backed known (addPortion xs p) := by
  unfold Sys2Proof.Machine.addPortion
  split
  · intro q hq
    obtain ⟨x, hx, rfl⟩ := List.mem_map.mp hq
    obtain ⟨hxv, hxk⟩ := h x hx
    split
    · exact ⟨Nat.add_pos_left hxv _, hxk⟩
    · exact ⟨hxv, hxk⟩
  · exact h.append (.singleton hv hk)

theorem Backed.mergeInto (h : Backed known xs) (g : Backed known ps) : Backed known (mergeInto xs ps) := by
  induction ps generalizing xs with
  | nil => exact h
  | cons p ps ih =>
    obtain ⟨hv, hk⟩ := g p List.mem_cons_self
    exact ih (h.addPortion hv hk) fun q hq => g q (List.mem_cons_of_mem _ hq)

theorem mem_keysOf_mergeInto {k : Key} (h : k ∈ keysOf xs) (ps : List Share) : k ∈ keysOf (mergeInto xs ps) := by
  induction ps generalizing xs with
  | nil => exact h
  | cons p ps ih =>
    refine ih ?_
    rw [keysOf_addPortion]
    split
    · exact h
    · exact List.mem_append_left _ h

/-- A list truncated (R41). -/
theorem Backed.truncated (h : Backed known xs) (hn : (keysOf xs).Nodup) (h12 : 12 < xs.length) :
    Backed known (truncateList xs).1 ∧ (keysOf (truncateList xs).1).Nodup := by
  obtain ⟨_, _, hcount, hremoved, _, _, hkept⟩ := truncationFoldsTheSmallestIntoUnknown xs hn h12
  generalize hstay : xs.filter (fun y => y ∉ (truncateList xs).2) = stay at hkept
  have hsub : stay.Sublist xs := hstay ▸ List.filter_sublist
  have hstayed : Backed known stay := fun p hp => h p (hsub.subset hp)
  have hnodup : (keysOf stay).Nodup := hn.sublist (hsub.map _)
  rw [hkept]
  by_cases hu : Key.unknown ∈ keysOf xs
  · rw [if_pos hu]
    constructor
    · intro q hq
      obtain ⟨x, hx, rfl⟩ := List.mem_map.mp hq
      obtain ⟨hxv, hxk⟩ := hstayed x hx
      split
      · exact ⟨Nat.add_pos_left hxv _, hxk⟩
      · exact ⟨hxv, hxk⟩
    · have hkeys : keysOf (stay.map (fun y => if y.key = .unknown then { y with vol := y.vol + total (truncateList xs).2 } else y)) =
          keysOf stay := by
        simp only [keysOf, List.map_map]
        refine List.map_congr_left fun y _ => ?_
        dsimp only [Function.comp]
        split <;> rfl
      rw [hkeys]
      exact hnodup
  · rw [if_neg hu]
    have hpos : 0 < total (truncateList xs).2 := by
      rw [if_neg hu] at hcount
      have hsound : Backed known (truncateList xs).2 := fun p hp => h p (hremoved p hp).1
      exact hsound.total_pos (List.ne_nil_of_length_pos (by omega))
    refine ⟨hstayed.append (.singleton hpos (.inl rfl)), ?_⟩
    rw [show keysOf (stay ++ [⟨.unknown, total (truncateList xs).2⟩]) = keysOf stay ++ [.unknown] from List.map_append ..]
    exact List.nodup_append.mpr ⟨hnodup, List.nodup_singleton _, fun a ha b hb e => hu (by
      rw [← List.mem_singleton.mp hb, ← e]
      exact (hsub.map _).subset ha)⟩

end portions

/-! ## Blends formed -/

/-- The lineage state `k` is `l` with the blends `formed` at count 0, the references of their members owed. -/
structure Formed (l : Lineage) (held : List Key) (k : Lineage) (owed formed : List Key) : Prop where
  tallied : Tallied k held owed
  refs : ∀ x, k.refsOf x = if x ∈ formed then some 0 else l.refsOf x
  fresh : ∀ x ∈ formed, l.refsOf x = none
  nodup : formed.Nodup
  room : k.blends.length ≤ 1024
  members : ∀ x ∈ owed, x = .unknown ∨ l.refsOf x ≠ none

section formed

variable {l k : Lineage} {held owed formed : List Key}

theorem Formed.refl (h : Tallied l held []) (hroom : l.blends.length ≤ 1024) : Formed l held l [] [] :=
  ⟨h, fun _ => (if_neg List.not_mem_nil).symm, fun _ h => absurd h List.not_mem_nil, List.nodup_nil, hroom,
    fun _ h => absurd h List.not_mem_nil⟩

theorem Formed.congr (h : Formed l held k owed formed) {m : Lineage} (hc : m.colls = k.colls) (hb : m.blends = k.blends) :
    Formed l held m owed formed :=
  ⟨h.tallied.of_counts (.of_eq hc hb), fun x => (congrFun (Lineage.refsOf_congr hc hb) x).trans (h.refs x), h.fresh,
    h.nodup, hb ▸ h.room, h.members⟩

theorem Formed.unformed (h : Formed l held k owed formed) {x : Key} (hx : k.refsOf x = none) : l.refsOf x = none ∧ x ∉ formed := by
  rw [h.refs] at hx
  split at hx
  · cases hx
  · rename_i hn
    exact ⟨hx, hn⟩

/-- A blend formed of known shares (R40, R45). -/
theorem Formed.blend {s : State} (h : Formed l held s.lin owed formed) (hfree : s.lin.freeBlends ≠ 0) (dst : Nat) (cat : Cat)
    {members : List Share} (hm : Backed (fun x => l.refsOf x ≠ none) members) (tag : Nat) :
    Formed l held (s.formBlend dst cat members tag).1.lin (owed ++ keysOf members)
      (formed ++ [(s.formBlend dst cat members tag).2]) ∧
    s.lin.refsOf (s.formBlend dst cat members tag).2 = none := by
  have hlen : s.lin.blends.length < 1024 := Nat.lt_of_not_le (mt s.lin.freeBlends_zero.mpr hfree)
  let r : BlendRec := ⟨s.lin.issueBlend, cat.getD 0, false, s.lin.listSuspect (keysOf members), 0, some ⟨s.now, dst, members⟩⟩
  have hnew : s.lin.refsOf (.blend r.serial) = none := Lineage.issueBlend_fresh h.room
  obtain ⟨hl, hnot⟩ := h.unformed hnew
  have howed : owed.count (.blend r.serial) = 0 := List.count_eq_zero.mpr fun hx => by
    rcases h.members _ hx with e | e
    · cases e
    · exact e hl
  have hres : ∀ x ∈ keysOf members, x ≠ .unknown → s.lin.refsOf x ≠ none := fun x hx hu hn =>
    ((hm.keys hx).resolve_left hu) (h.unformed hn).1
  have ht : Tallied (s.lin.addBlend r) held (owed ++ keysOf members) := h.tallied.addBlend hnew rfl howed hres
  have hform : Formed l held (s.lin.addBlend r) (owed ++ keysOf members) (formed ++ [.blend r.serial]) := by
    refine ⟨ht, fun x => ?_, fun x hx => ?_, ?_, ?_, fun x hx => ?_⟩
    · rw [s.lin.refsOf_addBlend hnew, h.refs]
      by_cases e : x = .blend r.serial
      · rw [if_pos e, if_pos (List.mem_append_right _ (List.mem_singleton.mpr e))]
      · rw [if_neg e]
        refine if_congr ⟨List.mem_append_left _, fun hx => ?_⟩ rfl rfl
        exact (List.mem_append.mp hx).resolve_right fun hx => e (List.mem_singleton.mp hx)
    · rcases List.mem_append.mp hx with hx | hx
      · exact h.fresh x hx
      · exact (List.mem_singleton.mp hx) ▸ hl
    · exact List.nodup_append.mpr ⟨h.nodup, List.nodup_singleton _, fun a ha b hb e =>
        hnot ((List.mem_singleton.mp hb) ▸ e ▸ ha)⟩
    · change (insertLowest r 0 s.lin.blends).length ≤ 1024
      rw [insertLowest_length]
      exact hlen
    · rcases List.mem_append.mp hx with hx | hx
      · exact h.members x hx
      · exact hm.keys hx
  exact ⟨hform.congr rfl rfl, hnew⟩

end formed

/-! ## The merge -/

/-- What a merge leaves, of tables that tally with the keys held. -/
structure MergeSound (l : Lineage) (held : List Key) (m : Merged) : Prop where
  formed : Formed l held m.st.lin m.members (m.blendA.toList ++ m.blendB.toList)
  nodup : (keysOf m.final).Nodup
  final : Backed (fun x => l.refsOf x ≠ none ∨ x ∈ m.blendA.toList ++ m.blendB.toList) m.final
  blendB : ∀ x ∈ m.blendB, x ∈ keysOf m.final

section merge

variable {l : Lineage} {held : List Key} {pre ps : List Share} (dst : Nat) (incoming : Cat) (tag : Nat)

theorem State.truncate_records (s : State) (xs : List Share) :
    (s.truncate dst xs tag).1.lin.colls = s.lin.colls ∧ (s.truncate dst xs tag).1.lin.blends = s.lin.blends := by
  rw [State.truncate_lin]
  exact ⟨(Alike.setUncertain s.lin dst).colls, (Alike.setUncertain s.lin dst).blends⟩

variable (hps : Backed (fun x => l.refsOf x ≠ none) ps)
include hps

/-- Step (b), or truncation (R39, R41). -/
theorem Merged.stepB_sound {m : Merged} (h : Formed l held m.st.lin m.members m.blendA.toList) (hB : m.blendB = none)
    {base : List Share} (hbase : base.length ≤ 1) (hn : (keysOf base).Nodup)
    (hkeys : Backed (fun x => l.refsOf x ≠ none ∨ x ∈ m.blendA.toList) base) (h12 : 12 < (mergeInto base ps).length) :
    MergeSound l held (m.stepB dst base (mergeInto base ps) ps incoming tag) := by
  have hps' : Backed (fun x => l.refsOf x ≠ none ∨ x ∈ m.blendA.toList) ps := hps.mono fun _ => .inl
  unfold Merged.stepB
  split
  · obtain ⟨hf, hd⟩ := (hkeys.mergeInto hps').truncated (mergeInto_total hn ps).1 h12
    obtain ⟨hc, hb⟩ := State.truncate_records dst tag m.st (mergeInto base ps)
    refine ⟨?_, hd, ?_, fun x hx => ?_⟩
    · change Formed l held _ m.members (m.blendA.toList ++ m.blendB.toList)
      rw [hB, Option.toList_none, List.append_nil]
      exact h.congr hc hb
    · change Backed (fun x => l.refsOf x ≠ none ∨ x ∈ m.blendA.toList ++ m.blendB.toList) (truncateList (mergeInto base ps)).1
      rw [hB, Option.toList_none, List.append_nil]
      exact hf
    · rw [show m.blendB = none from hB] at hx
      cases hx
  · rename_i hfree
    let known : List Share := ps.filter (fun x => x.key != .unknown)
    let unknown : List Share := ps.filter (fun x => x.key == .unknown)
    have hknown : known ≠ [] := fun hnil => by
      have hall : ∀ p ∈ ps, p.key = .unknown := fun p hp => by
        by_contra hu
        have : p ∈ known := List.mem_filter.mpr ⟨hp, by simpa using hu⟩
        rw [hnil] at this
        exact List.not_mem_nil this
      have := (mergeInto_unknown hall (List.nodup_iff_count_le_one.mp hn .unknown)).2
      omega
    have hportions : Backed (fun x => l.refsOf x ≠ none) known := hps.filter _
    obtain ⟨hform, hnew⟩ := h.blend (by simpa using hfree) dst incoming hportions tag
    change MergeSound l held ⟨(m.st.formBlend dst incoming known tag).1,
      mergeInto (base ++ [⟨(m.st.formBlend dst incoming known tag).2, total known⟩]) unknown, m.blendA,
      some (m.st.formBlend dst incoming known tag).2, m.members ++ keysOf known, m.truncated⟩
    generalize m.st.formBlend dst incoming known tag = r at hform hnew ⊢
    obtain ⟨hl, hnot⟩ := h.unformed hnew
    have hr : r.2 ∉ keysOf base := fun hx => by
      rcases hkeys.keys hx with e | e | e
      · have hmem : r.2 ∈ m.blendA.toList ++ [r.2] := List.mem_append_right _ (List.mem_singleton.mpr rfl)
        have hsome := hform.refs r.2
        rw [if_pos hmem, e] at hsome
        cases hsome
      · exact e hl
      · exact hnot e
    have hall : Backed (fun x => l.refsOf x ≠ none ∨ x ∈ m.blendA.toList ++ [r.2]) (base ++ [⟨r.2, total known⟩]) := by
      refine (hkeys.mono fun x hx => hx.imp_right (List.mem_append_left _)).append (.singleton ?_ ?_)
      · exact hportions.total_pos hknown
      · exact .inr (.inr (List.mem_append_right _ (List.mem_singleton.mpr rfl)))
    have hlist : keysOf (base ++ [⟨r.2, total known⟩]) = keysOf base ++ [r.2] := List.map_append ..
    have hdist : (keysOf (base ++ [⟨r.2, total known⟩])).Nodup := by
      rw [hlist]
      exact List.nodup_append.mpr ⟨hn, List.nodup_singleton _, fun a ha b hb e => hr (List.mem_singleton.mp hb ▸ e ▸ ha)⟩
    refine ⟨hform, (mergeInto_total hdist _).1, ?_, fun x hx => ?_⟩
    · exact hall.mergeInto ((hps.filter (fun x => x.key == .unknown)).mono fun _ => .inl)
    · have hx : x = r.2 := (Option.some.inj hx).symm
      refine mem_keysOf_mergeInto ?_ _
      rw [hlist, hx]
      exact List.mem_append_right _ (List.mem_singleton.mpr rfl)

/-- The merge of known portions into a list of known shares. -/
theorem State.mergeList_sound {s : State} (h : Tallied s.lin held []) (hroom : s.lin.blends.length ≤ 1024)
    (hl : s.lin = l) (hn : (keysOf pre).Nodup) (hpre : Backed (fun x => l.refsOf x ≠ none) pre) :
    MergeSound l held (s.mergeList dst pre ps incoming tag) := by
  subst hl
  have hstart := Formed.refl h hroom
  have hmerged := (mergeInto_total hn ps).1
  have hall : Backed (fun x => s.lin.refsOf x ≠ none ∨ x ∈ ([] : List Key)) (mergeInto pre ps) :=
    (hpre.mergeInto hps).mono fun _ => .inl
  unfold State.mergeList
  dsimp only
  split
  case isTrue => exact ⟨hstart, hmerged, hall, nofun⟩
  case isFalse hlong =>
  have h12 : 12 < (mergeInto pre ps).length := Nat.lt_of_not_le hlong
  split
  case isTrue hsmall =>
    exact Merged.stepB_sound dst incoming tag hps hstart rfl (Nat.le_of_lt_succ hsmall) hn (hpre.mono fun _ => .inl) h12
  case isFalse hlarge =>
  split
  case isTrue =>
    obtain ⟨hf, hd⟩ := hall.truncated hmerged h12
    obtain ⟨hc, hb⟩ := State.truncate_records dst tag s (mergeInto pre ps)
    exact ⟨hstart.congr hc hb, hd, hf, nofun⟩
  case isFalse hfree =>
  obtain ⟨hform, _⟩ := hstart.blend (by simpa using hfree) dst (s.lin.catOf (s.lin.vessel dst)) hpre tag
  generalize s.formBlend dst (s.lin.catOf (s.lin.vessel dst)) pre tag = r at hform ⊢
  have hne : pre ≠ [] := fun e => hlarge (by rw [e]; exact Nat.zero_lt_two)
  have hbase : Backed (fun x => s.lin.refsOf x ≠ none ∨ x ∈ [r.2]) [⟨r.2, total pre⟩] :=
    .singleton (hpre.total_pos hne) (.inr (.inr (List.mem_singleton.mpr rfl)))
  have hbn : (keysOf [⟨r.2, total pre⟩]).Nodup := List.nodup_singleton _
  split
  · exact ⟨hform, (mergeInto_total hbn ps).1, hbase.mergeInto (hps.mono fun _ => .inl), nofun⟩
  · rename_i hlong
    exact Merged.stepB_sound (m := ⟨r.1, mergeInto [⟨r.2, total pre⟩] ps, some r.2, none, keysOf pre, false⟩) dst incoming
      tag hps hform rfl (Nat.le_refl 1) hbn hbase (Nat.lt_of_not_le hlong)

end merge

end Sys2Proof.Machine

/-! Transfers and references (R42): the keys that a merge gains and loses against the lists it leaves. -/

namespace Sys2Proof.Machine

open Sys2Proof

section count

/-- The balance where no blend replaces the list: what is final is old, new or formed. -/
theorem balance_plain (P F B : Prop) [Decidable P] [Decidable F] [Decidable B] (h : B → F ∧ ¬ P) (n : Nat) :
    (if P ∧ ¬ F then 1 else 0) + (if F then 1 else 0) + n =
      (if P then 1 else 0) + ((if F ∧ ¬ P ∧ ¬ B then 1 else 0) + n + if B then 1 else 0) := by
  by_cases hF : F
  · by_cases hB : B
    · simp only [hF, hB, (h hB).2, not_true, and_false, if_true, if_false]
      omega
    · by_cases hP : P <;> simp only [hF, hB, hP, not_true, not_false_iff, and_false, and_true, if_true, if_false] <;> omega
  · simp only [hF, mt (fun hB => (h hB).1) hF, not_false_iff, and_true, false_and, if_false]
    omega

/-- The balance where a blend replaces the list: all of it is lost, and the blend where it does not stand. -/
theorem balance_replaced (P F A B : Prop) [Decidable P] [Decidable F] [Decidable A] [Decidable B] (h : B → F) (n : Nat) :
    ((if P then 1 else 0) + if A ∧ ¬ F then 1 else 0) + (if F then 1 else 0) + n =
      (if P then 1 else 0) + ((if F ∧ ¬ (A ∨ B) then 1 else 0) + n + if A ∨ B then 1 else 0) := by
  by_cases hF : F
  · by_cases hAB : A ∨ B <;> simp only [hF, hAB, not_true, not_false_iff, and_false, and_true, if_true, if_false] <;> omega
  · simp only [hF, mt h hF, not_false_iff, and_true, or_false, false_and, if_false]
    omega

variable {l : Lineage} {held : List Key} {m : Merged} {pre : List Share}

theorem count_filter_nodup {xs : List Key} (h : xs.Nodup) (q : Key → Bool) (k : Key) :
    (xs.filter q).count k = if k ∈ xs ∧ q k = true then 1 else 0 := by
  rw [(h.filter q).count]
  exact if_congr List.mem_filter rfl rfl

variable (h : MergeSound l held m) (hn : (keysOf pre).Nodup) (hpre : Backed (fun x => l.refsOf x ≠ none) pre)
include h hn hpre

/-- Each key gains and loses as the lists and the members have it. -/
theorem MergeSound.counts (k : Key) (hu : k ≠ .unknown) :
    (m.lost pre).count k + (keysOf m.final).count k + m.members.count k =
      (keysOf pre).count k + (m.gained pre).count k := by
  have hF : (keysOf m.final).count k = if k ∈ keysOf m.final then 1 else 0 := h.nodup.count
  have hP : (keysOf pre).count k = if k ∈ keysOf pre then 1 else 0 := hn.count
  have hformed : (m.blendA.toList ++ m.blendB.toList).count k =
      if k ∈ m.blendA.toList ++ m.blendB.toList then 1 else 0 := h.formed.nodup.count
  have hfresh : k ∈ m.blendA.toList ++ m.blendB.toList → k ∉ keysOf pre := fun hk hp =>
    ((hpre.keys hp).resolve_left hu) (h.formed.fresh k hk)
  have hB := h.blendB k
  rw [Merged.gained_eq, Merged.lost_eq, List.count_append, List.count_append, count_filter_nodup h.nodup, hformed, hF, hP]
  cases hA : m.blendA with
  | none =>
    rw [hA] at hfresh
    simp only [Option.toList_none, List.nil_append, Option.mem_toList, ne_eq, not_true_eq_false, false_or,
      decide_eq_true_eq] at hfresh ⊢
    rw [count_filter_nodup hn]
    simp only [decide_eq_true_eq]
    exact balance_plain (k ∈ keysOf pre) (k ∈ keysOf m.final) (k ∈ m.blendB) (fun hk => ⟨hB hk, hfresh hk⟩) _
  | some a =>
    have hlost : (if a ∈ keysOf m.final then [] else [a]).count k = if k = a ∧ k ∉ keysOf m.final then 1 else 0 := by
      by_cases hka : k = a
      · subst hka
        by_cases hf : k ∈ keysOf m.final
        · simp [hf]
        · simp [hf]
      · split <;> simp [hka, Ne.symm hka]
    simp only [Option.toList_some, List.cons_append, List.nil_append, List.mem_cons, Option.mem_toList, ne_eq,
      reduceCtorEq, not_false_eq_true, true_or, true_and, decide_eq_true_eq, List.count_append, hP, hlost]
    exact balance_replaced (k ∈ keysOf pre) (k ∈ keysOf m.final) (k = a) (k ∈ m.blendB) hB _

omit hn hpre in
/-- The keys gained have their records. -/
theorem MergeSound.gained_known {k : Key} (hk : k ∈ m.gained pre) (hu : k ≠ .unknown) : m.st.lin.refsOf k ≠ none := by
  intro hnone
  obtain ⟨hl, hnot⟩ := h.formed.unformed hnone
  rw [Merged.gained_eq] at hk
  rcases List.mem_append.mp hk with hk | hk
  · rcases List.mem_append.mp hk with hk | hk
    · rcases h.final.keys (List.mem_filter.mp hk).1 with e | e | e
      · exact hu e
      · exact e hl
      · exact hnot e
    · exact ((h.formed.members k hk).resolve_left hu) hl
  · exact hnot hk

/-- The tables that a transfer leaves tally with the lists that it leaves. -/
theorem MergeSound.released (hpos : l.Positive) {gone out : List Key}
    (hout : ∀ k, k ≠ .unknown →
      out.count k + gone.count k + (keysOf pre).count k = held.count k + (keysOf m.final).count k) :
    Released m.st.lin ((m.st.lin.addRefs (m.gained pre)).releaseAll (gone ++ m.lost pre)) out := by
  have hbalance : ∀ k, k ≠ .unknown →
      ((gone ++ m.lost pre) ++ out).count k + m.members.count k = held.count k + (m.gained pre).count k := fun k hu => by
    have h1 := h.counts hn hpre k hu
    have h2 := hout k hu
    rw [List.count_append, List.count_append]
    omega
  have ht : Tallied m.st.lin ((gone ++ m.lost pre) ++ out) (m.gained pre) :=
    h.formed.tallied.congr hbalance fun k hu hnone => by
      have hheld := h.formed.tallied.listed k hu hnone
      rw [List.count_append] at hheld
      have hgained : (m.gained pre).count k = 0 := List.count_eq_zero.mpr fun hk => h.gained_known hk hu hnone
      have := hbalance k hu
      omega
  have hp : (m.st.lin.addRefs (m.gained pre)).Positive := fun k r hr => by
    rw [Lineage.refsOf_addRefs] at hr
    obtain ⟨n, hn', rfl⟩ := Option.map_eq_some_iff.mp hr
    rw [h.formed.refs] at hn'
    split at hn'
    · rename_i hk
      refine Nat.add_pos_right _ (List.count_pos_iff.mpr ?_)
      rw [Merged.gained_eq]
      exact List.mem_append_right _ hk
    · exact Nat.add_pos_left (hpos k n hn') _
  obtain ⟨htally, hposit, hb, hc⟩ := Tallied.releaseAll _ _ ht.addRefs hp
  have hlen := SameRecords.lengths (m.st.lin.addRefs_sameRecords (m.gained pre))
  exact ⟨htally, hposit, hb.trans hlen.2.le, hc.trans hlen.1.le⟩

end count

end Sys2Proof.Machine

/-! What keeps a lineage state sound: the draw of a transfer (R28 to R32, R72 to R75). -/

namespace Sys2Proof.Machine

open Sys2Proof

/-! ## Lists and their records -/

section known

variable {l : Lineage} (h : l.Sound)
include h

theorem Lineage.Sound.known {k : Key} (hk : k ∈ l.outerKeys) (hu : k ≠ .unknown) : l.refsOf k ≠ none := fun hn => by
  have := h.tallied.listed k hu hn
  rw [List.count_append] at this
  exact List.count_eq_zero.mp (Nat.le_zero.mp (this ▸ Nat.le_add_right _ _)) hk

theorem Lineage.Sound.known_vessel {v : Nat} {k : Key} (hk : k ∈ keysOf (l.vessel v).list) :
    k = .unknown ∨ l.refsOf k ≠ none := by
  by_cases hu : k = .unknown
  · exact .inl hu
  · have hv : v < 64 := by
      by_contra hv
      have : l.vessel v = {} := by simp [Lineage.vessel, vget, hv]
      rw [this] at hk
      exact List.not_mem_nil hk
    have hset := l.outerKeys_setVessel k hv {}
    have := List.count_pos_iff.mpr hk
    change _ = _ + 0 at hset
    exact .inr (h.known (List.count_pos_iff.mp (by omega)) hu)

theorem Lineage.Sound.known_slot {b n : Nat} (hb : b < 8) (hn : n < 6) {k : Key}
    (hk : k ∈ ((l.ring b).slot n).shares.map CompShare.key) : k = .unknown ∨ l.refsOf k ≠ none := by
  by_cases hu : k = .unknown
  · exact .inl hu
  · have hring : k ∈ (l.ring b).keys := by
      rw [Ring.keys_eq]
      exact List.mem_flatMap.mpr ⟨n, List.mem_range.mpr hn, hk⟩
    have hset := l.outerKeys_setRing k hb Ring.cleared
    have := List.count_pos_iff.mpr hring
    rw [Ring.cleared_keys] at hset
    change _ = _ + 0 at hset
    exact .inr (h.known (List.count_pos_iff.mp (by omega)) hu)

theorem Lineage.Sound.backed_store {v : Nat} (hv : v < 64) (hk : (l.vessel v).kind = .store) :
    Backed (fun x => l.refsOf x ≠ none) (l.vessel v).list := fun p hp =>
  ⟨((h.shaped.vessels v hv).store hk).1.1.2.2 p hp, h.known_vessel (List.mem_map_of_mem hp)⟩

end known

/-! ## What a draw leaves -/

/-- A draw takes keys from its source's list and yields portions of them. -/
structure Drains (l : Lineage) (d : Draw) : Prop where
  shaped : Shaped d.st.lin
  colls : d.st.lin.colls = l.colls
  blends : d.st.lin.blends = l.blends
  keys : ∀ k, d.st.lin.outerKeys.count k + d.gone.count k = l.outerKeys.count k
  portions : Backed (fun x => l.refsOf x ≠ none) d.portions

section store

variable {s : State} {src v : Nat}

theorem cancel_parts {a b c k o : Nat} (h : a + k = o + b) (g : b + c = k) : a + c = o := by
  omega

theorem count_keysOf_filter (q : Share → Bool) (xs : List Share) (k : Key) :
    (keysOf (xs.filter q)).count k + (keysOf (xs.filter (fun y => !q y))).count k = (keysOf xs).count k := by
  have := ((List.filter_append_perm q xs).map Share.key).count_eq k
  rw [List.map_append, List.count_append] at this
  exact this

theorem keysOf_lowered {xs : List Share} {ps : List Nat} (h : ps.length = xs.length) : keysOf (lowered xs ps) = keysOf xs := by
  rw [lowered_eq, keysOf, List.map_zipWith]
  induction xs generalizing ps with
  | nil => rfl
  | cons x xs ih =>
    cases ps with
    | nil => cases h
    | cons p ps => exact congrArg (x.key :: ·) (ih (Nat.succ.inj h))

/-- A STORE with less in its list. -/
theorem Vessel.Ok.relist {x : Vessel} (h : x.Ok) (hk : x.kind = .store) {xs : List Share} (hx : ListBounded xs)
    (he : x.list = [] → xs = []) : Vessel.Ok { x with list := xs } :=
  ⟨fun _ => ⟨hx, fun hs => he ((h.store hk).2.1 hs), (h.store hk).2.2⟩, fun e => absurd hk e, h.bayIndex, h.fillerIndex⟩

theorem Shaped.relist {l : Lineage} (h : Shaped l) (hv : src < 64) (hk : (l.vessel src).kind = .store) {xs : List Share}
    (hx : ListBounded xs) (he : (l.vessel src).list = [] → xs = []) :
    Shaped (l.setVessel src { l.vessel src with list := xs }) :=
  h.setVessel hv ((h.vessels src hv).relist hk hx he) rfl rfl rfl fun e => by cases hk.symm.trans e

variable (h : s.lin.Sound) (hk : (s.lin.vessel src).kind = .store)
include h hk

theorem State.drawPlain_drains (hv : v ≤ total (s.lin.vessel src).list) : Drains s.lin (s.drawPlain src v) := by
  have hlt : src < 64 := s.lin.vessel_lt (by rw [hk]; decide)
  obtain ⟨⟨⟨hlen, hnodup, hpos⟩, htotal⟩, _, _⟩ := (h.shaped.vessels src hlt).store hk
  let ps := apportion v ((s.lin.vessel src).list.map Share.vol)
  let after := lowered (s.lin.vessel src).list ps
  have hps : ps.length = (s.lin.vessel src).list.length :=
    (apportion_length_sum (ws := (s.lin.vessel src).list.map Share.vol)
      (fun h0 => Nat.le_zero.mp (hv.trans_eq h0))).1.trans (List.length_map _)
  have hkeys : keysOf after = keysOf (s.lin.vessel src).list := keysOf_lowered hps
  have hafter : after.length = (s.lin.vessel src).list.length := by
    have := congrArg List.length hkeys
    rwa [keysOf, keysOf, List.length_map, List.length_map] at this
  have hbound : ListBounded (after.filter (fun a => a.vol != 0)) := by
    refine ⟨⟨?_, ?_, fun p hp => ?_⟩, ?_⟩
    · exact (List.length_filter_le _ _).trans (hafter.le.trans hlen)
    · exact (hkeys ▸ hnodup).sublist (List.filter_sublist.map _)
    · exact Nat.pos_of_ne_zero (by simpa using (List.mem_filter.mp hp).2)
    · rw [total_filter_ne, total_lowered _ hv]
      exact (Nat.sub_le _ _).trans htotal
  refine ⟨h.shaped.relist hlt hk hbound fun he => ?_, rfl, rfl, fun k => ?_, ?_⟩
  · have : after = [] := by rw [← List.length_eq_zero_iff, hafter, he]; rfl
    exact congrArg (List.filter (fun a : Share => a.vol != 0)) this
  · have hset := s.lin.outerKeys_setVessel k hlt { s.lin.vessel src with list := after.filter (fun a => a.vol != 0) }
    have hsplit := count_keysOf_filter (fun a => a.vol != 0) after k
    have hneg : after.filter (fun a => !(a.vol != 0)) = after.filter (fun a => a.vol == 0) :=
      List.filter_congr fun y _ => Bool.not_not _
    rw [hneg, hkeys] at hsplit
    exact cancel_parts hset hsplit
  · exact (Backed.portionsOf (fun k hk => h.known_vessel hk) _).unknownLast 0

theorem State.drawOver_drains (dst tag : Nat) : Drains s.lin (s.drawOver src dst v tag) := by
  have hlt : src < 64 := s.lin.vessel_lt (by rw [hk]; decide)
  let k := s.lin.setVessel src { s.lin.vessel src with list := [] }
  have hlin : (s.drawOver src dst v tag).st.lin = k.setUncertain dst := by
    unfold State.drawOver
    dsimp only
    rw [State.raise_lin]
    rfl
  have ha := Alike.setUncertain k dst
  refine ⟨?_, ?_, ?_, fun x => ?_, ?_⟩
  · rw [hlin]
    exact ha.shaped (h.shaped.relist hlt hk listBounded_nil fun _ => rfl)
  · rw [hlin, ha.colls]
    rfl
  · rw [hlin, ha.blends]
    rfl
  · rw [hlin, ha.outerKeys]
    exact s.lin.outerKeys_setVessel x hlt { s.lin.vessel src with list := [] }
  · exact (h.backed_store hlt hk).unknownLast _

omit hk in
theorem State.drawUnseeded_drains (dst tag : Nat) (hv : 0 < v) : Drains s.lin (s.drawUnseeded src dst v tag) := by
  have hlin : (s.drawUnseeded src dst v tag).st.lin = s.lin.setUncertain dst := by
    unfold State.drawUnseeded
    dsimp only
    split
    · exact State.raise_lin ..
    · rfl
  have ha := Alike.setUncertain s.lin dst
  refine ⟨?_, ?_, ?_, fun x => ?_, .singleton hv (.inl rfl)⟩
  · rw [hlin]
    exact ha.shaped h.shaped
  · rw [hlin, ha.colls]
  · rw [hlin, ha.blends]
  · rw [hlin, ha.outerKeys]
    rfl

end store

section bay

variable (c : Slot) (v : Nat)

theorem Slot.afterDraw_keys : (c.afterDraw v).tag = c.tag ∧
    (c.afterDraw v).shares.map CompShare.key = c.shares.map CompShare.key := by
  unfold Slot.afterDraw
  split
  · exact ⟨rfl, rfl⟩
  · refine ⟨rfl, ?_⟩
    have hlen := (c.normalPortions_spec v).1
    dsimp only
    rw [List.map_map]
    change (c.shares.zip (c.normalPortions v)).map (CompShare.key ∘ Prod.fst) = _
    rw [← List.map_map, List.map_fst_zip hlen.ge]

theorem Slot.afterDraw_le : (c.afterDraw v).remainingTotal ≤ c.remainingTotal := by
  have := c.afterDraw_remaining v
  omega

variable {s : State} {src : Nat} (h : s.lin.Sound) (hk : (s.lin.vessel src).kind = .bay)
include h hk

theorem State.drawBay_drains (dst tag : Nat) : Drains s.lin (s.drawBay src dst v tag) := by
  have hlt : src < 64 := s.lin.vessel_lt (by rw [hk]; decide)
  have hb : (s.lin.vessel src).bayIndex < 8 := (h.shaped.vessels src hlt).bayIndex
  have hr := h.shaped.rings _ hb
  let r := s.lin.ring (s.lin.vessel src).bayIndex
  let c := r.slot r.disch
  let k := s.lin.setRing (s.lin.vessel src).bayIndex (r.setSlot r.disch (c.afterDraw v))
  have hring : (r.setSlot r.disch (c.afterDraw v)).Ok ∧ (r.occupied = [] → (r.setSlot r.disch (c.afterDraw v)).occupied = []) ∧
      ∀ x, (r.setSlot r.disch (c.afterDraw v)).keys.count x = r.keys.count x := by
    by_cases h6 : r.disch < 6
    · refine ⟨hr.setSlot h6 (fun ht => ?_) ?_, fun ho => ?_, fun x => ?_⟩
      · rw [(c.afterDraw_keys v).1] at ht
        have := congrArg (List.map CompShare.key) (hr.slots _ h6 ht)
        rw [← (c.afterDraw_keys v).2] at this
        exact List.map_eq_nil_iff.mp this
      · exact (Nat.add_le_add_left (c.afterDraw_le v) _).trans ((Nat.add_comm _ _).le.trans (Nat.add_le_add_left hr.content _))
      · rw [Ring.occupied_nil] at ho ⊢
        intro j hj
        rw [Ring.slot_setSlot h6]
        split
        · exact (c.afterDraw_keys v).1.trans (ho _ h6)
        · exact ho j hj
      · have := r.keys_setSlot x h6 (c.afterDraw v)
        rw [(c.afterDraw_keys v).2] at this
        exact Nat.add_right_cancel this
    · have : r.setSlot r.disch (c.afterDraw v) = r := by
        rw [Ring.setSlot, vset_of_le _ (Nat.le_of_not_lt h6)]
      rw [this]
      exact ⟨hr, id, fun _ => rfl⟩
  obtain ⟨hok, hocc, hkeys⟩ := hring
  have ha : Alike k (s.drawBay src dst v tag).st.lin := by
    unfold State.drawBay
    dsimp only
    split
    · exact .refl k
    · rw [State.raise_lin]
      exact .setUncertain k dst
  refine ⟨ha.shaped (h.shaped.setRing_kept hb hok hocc), ha.colls, ha.blends, fun x => ?_, ?_⟩
  · rw [ha.outerKeys]
    have := s.lin.outerKeys_setRing x hb (r.setSlot r.disch (c.afterDraw v))
    rw [hkeys] at this
    exact Nat.add_right_cancel this
  · refine Backed.unknownLast ?_ _
    split
    · exact fun p hp => absurd hp List.not_mem_nil
    · refine Backed.portionsOf (fun x hx => ?_) _
      by_cases h6 : r.disch < 6
      · exact h.known_slot hb h6 hx
      · have : r.dischSlot = {} := by simp [Ring.dischSlot, vget, h6]
        rw [show (s.lin.ring (s.lin.vessel src).bayIndex).dischSlot = {} from this] at hx
        exact absurd hx List.not_mem_nil

end bay

theorem State.draw_drains {s : State} {src v : Nat} (h : s.lin.Sound)
    (hk : (s.lin.vessel src).kind = .store ∨ (s.lin.vessel src).kind = .bay) (hv : 0 < v) (dst tag : Nat) :
    Drains s.lin (s.draw src dst v tag) := by
  rcases hk with hk | hk
  · rw [s.draw_store src dst v tag hk]
    by_cases hs : (s.lin.vessel src).state = .unseeded
    · rw [s.drawStore_unseeded src dst v tag hs]
      exact State.drawUnseeded_drains h dst tag hv
    · by_cases hle : v ≤ total (s.lin.vessel src).list
      · rw [s.drawStore_plain src dst v tag hs hle]
        exact State.drawPlain_drains h hk hle
      · rw [s.drawStore_over src dst v tag hs (Nat.lt_of_not_le hle)]
        exact State.drawOver_drains h hk dst tag
  · rw [s.draw_bay src dst v tag hk]
    exact State.drawBay_drains v h hk dst tag

end Sys2Proof.Machine

/-! What keeps a lineage state sound: the delivery of a transfer (R33 to R42). -/

namespace Sys2Proof.Machine

open Sys2Proof

/-! ## A content put in its place -/

section content

variable {l k : Lineage} {dst : Nat}

theorem Lineage.outerKeys_putContent (h : Receives l dst) (c : Content) (x : Key) :
    (l.putContent dst c).outerKeys.count x + (keysOf (l.contentOf dst).list).count x =
      l.outerKeys.count x + (keysOf c.list).count x := by
  have hlt := h.lt
  cases h with
  | store hk =>
    rw [Lineage.putContent_store hk, Lineage.contentOf_store hk]
    exact l.outerKeys_setVessel x hlt _
  | @filler f older o hk hf h8 hs hr =>
    rw [Lineage.putContent_filler hk hf hs hr, Lineage.contentOf_filler hk hf hs hr]
    have hset := l.outerKeys_setFiller x h8 { l.filler f with ring := older ++ [c.intoBatch l o] }
    have hkeys : ∀ b : Batch, (older ++ [b]).flatMap (fun b => keysOf b.list) =
        older.flatMap (fun b => keysOf b.list) ++ keysOf b.list := fun b => by
      rw [List.flatMap_append, List.flatMap_cons, List.flatMap_nil, List.append_nil]
    unfold Filler.keys at hset
    rw [hr] at hset
    dsimp only at hset
    rw [hkeys, hkeys, List.count_append, List.count_append] at hset
    change _ + _ = _ + (_ + (keysOf c.list).count x) at hset
    dsimp only
    omega

/-- The keys of a destination's content are among those held. -/
theorem Receives.mem_outerKeys (h : Receives l dst) {x : Key} (hx : x ∈ keysOf (l.contentOf dst).list) : x ∈ l.outerKeys := by
  have hput := Lineage.outerKeys_putContent h ⟨[], none, false, false⟩ x
  have := List.count_pos_iff.mpr hx
  change _ = _ + 0 at hput
  exact List.count_pos_iff.mp (by omega)

theorem Shaped.content_bounded (hl : Shaped l) (h : Receives l dst) : ListBounded (l.contentOf dst).list := by
  have hlt := h.lt
  cases h with
  | store hk =>
    rw [Lineage.contentOf_store hk]
    exact ((hl.vessels dst hlt).store hk).1
  | @filler f older o hk hf h8 hs hr =>
    rw [Lineage.contentOf_filler hk hf hs hr]
    exact (hl.fillers f h8).batches o (hr ▸ List.mem_append_right _ (List.mem_singleton.mpr rfl))

theorem Shaped.putContent (hl : Shaped l) (h : Receives l dst) {c : Content} (hc : ListBounded c.list)
    (hst : (l.vessel dst).kind = .store → (l.vessel dst).state = .holding) : Shaped (l.putContent dst c) := by
  have hlt := h.lt
  cases h with
  | store hk =>
    rw [Lineage.putContent_store hk]
    have hx := hl.vessels dst hlt
    refine hl.setVessel hlt ⟨fun _ => ⟨hc, fun e => absurd (hst hk) e, (hx.store hk).2.2⟩, fun e => absurd hk e, hx.bayIndex,
      hx.fillerIndex⟩ rfl rfl rfl fun e => by cases hk.symm.trans e
  | @filler f older o hk hf h8 hs hr =>
    rw [Lineage.putContent_filler hk hf hs hr]
    refine hl.setFiller ⟨fun b hb => ?_, fun _ => List.append_ne_nil_of_right_ne_nil _ (List.cons_ne_nil _ _)⟩ fun hn => ?_
    · rcases List.mem_append.mp hb with hb | hb
      · exact (hl.fillers f h8).batches b (hr ▸ List.mem_append_left _ hb)
      · rw [List.mem_singleton.mp hb]
        exact hc
    · have := hl.freeFillers f h8 hn
      rw [hr] at this
      exact absurd this (List.append_ne_nil_of_right_ne_nil _ (List.cons_ne_nil _ _))

theorem Filler.openBatch_list (x : Filler) : x.openBatch.map Batch.list =
    if x.state = .batchOpen then (x.ring.map Batch.list).getLast? else none := by
  unfold Filler.openBatch
  by_cases hs : x.state = .batchOpen
  · rw [if_pos (beq_iff_eq.mpr hs), if_pos hs, List.getLast?_map]
  · rw [if_neg (by simpa using hs), if_neg hs]
    rfl

theorem Lineage.contentOf_list (l : Lineage) (dst : Nat) : (l.contentOf dst).list =
    if (l.vessel dst).kind = .filler then ((l.openBatchOf (l.vessel dst)).map Batch.list).getD [] else (l.vessel dst).list := by
  change l.listOf (l.vessel dst) = _
  unfold Lineage.listOf
  cases hk : (l.vessel dst).kind with
  | filler =>
    rw [if_pos rfl]
    dsimp only
    cases l.openBatchOf (l.vessel dst) <;> rfl
  | unconfigured => exact (if_neg nofun).symm
  | store => exact (if_neg nofun).symm
  | bay => exact (if_neg nofun).symm

theorem SameShape.content (h : SameShape l k) (dst : Nat) : (k.contentOf dst).list = (l.contentOf dst).list := by
  obtain ⟨c, u, s, hv⟩ := h.vessels dst
  obtain ⟨hs, hr⟩ := h.fillers (l.vessel dst).fillerIndex
  rw [Lineage.contentOf_list, Lineage.contentOf_list, Lineage.openBatchOf, Lineage.openBatchOf, Filler.openBatch_list,
    Filler.openBatch_list, hv]
  dsimp only
  rw [hs, hr]

end content

/-! ## The delivery -/

section delivery

variable {d : Draw} {src dst tag : Nat} {b : Lineage}

theorem Draw.Around.sameShape (h : d.Around src dst tag b) : SameShape d.st.lin b := by
  have hbase : Alike (d.base dst tag) (d.running dst tag) := by
    unfold Draw.running
    dsimp only
    split
    · exact .setFiller (d.base dst tag) _ rfl rfl
    · exact .refl _
  refine ⟨fun u => ?_, ?_, fun f => ?_, ?_, ?_⟩
  · by_cases hu : u = src
    · rw [hu, h.source]
      exact ⟨_, _, _, rfl⟩
    · rw [h.vessels u hu]
      exact ⟨_, _, _, rfl⟩
  · exact (congrArg Lineage.rings h.others :)
  · unfold Lineage.filler
    rw [h.fillers]
    exact hbase.fillers f
  · exact (congrArg Lineage.bankA h.others :)
  · exact (congrArg Lineage.bankB h.others :)

theorem Draw.ceiling_alike (d : Draw) (dst tag : Nat) (n : Nat) : Alike d.st.lin (d.st.ceilingRaise dst n tag).lin := by
  unfold State.ceilingRaise
  split
  · exact .refl _
  · rw [State.raise_lin]
    exact .setUncertain _ _

variable {l : Lineage} (h : l.Sound) (hd : Drains l d) (hr : Receives d.st.lin dst)
include h hd hr

theorem Drains.held_backed : Backed (fun x => l.refsOf x ≠ none) (d.held dst).list := fun p hp => by
  refine ⟨(hd.shaped.content_bounded hr).1.2.2 p hp, or_iff_not_imp_left.mpr fun hu => ?_⟩
  have hm := List.count_pos_iff.mpr (hr.mem_outerKeys (List.mem_map_of_mem hp))
  have hk := hd.keys p.key
  exact h.known (List.count_pos_iff.mp (by omega)) hu

/-- The merge of a transfer, of tables that tally with the lists before it. -/
theorem Drains.merge_sound (tag : Nat) : MergeSound (d.st.ceilingRaise dst (d.cut dst).2 tag).lin l.outerKeys (d.merge dst tag) := by
  have ha := d.ceiling_alike dst tag (d.cut dst).2
  have hc := ha.colls.trans hd.colls
  have hb := ha.blends.trans hd.blends
  have hrefs : ∀ k, l.refsOf k ≠ none → (d.st.ceilingRaise dst (d.cut dst).2 tag).lin.refsOf k ≠ none := fun k hk => by
    rw [Lineage.refsOf_congr hc hb]
    exact hk
  exact State.mergeList_sound dst d.incoming tag ((hd.portions.ceilingCut _).mono hrefs)
    (h.tallied.of_counts (.of_eq hc hb)) (hb ▸ h.blendRoom) rfl (hd.shaped.content_bounded hr).1.2.1
    ((hd.held_backed h hr).mono hrefs)

omit h in
theorem Drains.final_bounded (tag : Nat) (hm : MergeSound (d.st.ceilingRaise dst (d.cut dst).2 tag).lin l.outerKeys (d.merge dst tag)) :
    ListBounded (d.merge dst tag).final := by
  have hpre : ListBounded (d.held dst).list := hd.shaped.content_bounded hr
  obtain ⟨ht, hlen⟩ := State.mergeList_fits (ps := (d.cut dst).1) dst d.incoming tag (d.st.ceilingRaise dst (d.cut dst).2 tag)
    hpre.1.2.1
  have hcut : total (d.cut dst).1 = _ := (ceilingCut_total (total (d.held dst).list) d.portions).2
  have hle : total (d.held dst).list ≤ 1000000000 := hpre.2
  refine ⟨⟨hlen, hm.nodup, fun p hp => (hm.final p hp).1⟩, ?_⟩
  change total (State.mergeList _ dst (d.held dst).list (d.cut dst).1 d.incoming tag).final ≤ 1000000000
  rw [ht, hcut]
  omega

/-- A delivery leaves a sound lineage state. -/
theorem Drains.deliver_sound (hne : src ≠ dst) (hk : (d.st.lin.vessel src).kind = .store ∨ (d.st.lin.vessel src).kind = .bay)
    (hst : (d.st.lin.vessel dst).kind = .store → (d.st.lin.vessel dst).state = .holding) :
    (d.deliver src dst tag).st.lin.Sound := by
  have hm := hd.merge_sound h hr tag
  have ha := d.ceiling_alike dst tag (d.cut dst).2
  have hrefs := Lineage.refsOf_congr (ha.colls.trans hd.colls) (ha.blends.trans hd.blends)
  obtain ⟨b, hb, hlin⟩ := d.deliver_lin tag hr hne hk
  rw [hlin]
  have hshape := hb.sameShape
  let c : Content := { d.filled src dst tag with suspect := b.listSuspect (keysOf (d.merge dst tag).final) }
  obtain ⟨hpc, hpb⟩ := Lineage.records_putContent b dst c
  have hcolls : b.colls = (d.counted dst tag).colls := (congrArg Lineage.colls hb.others :)
  have hblends : b.blends = (d.counted dst tag).blends := (congrArg Lineage.blends hb.others :)
  have hsame : SameCounts (d.counted dst tag) (b.putContent dst c) := .of_eq (hpc.trans hcolls) (hpb.trans hblends)
  have hpos : (d.st.ceilingRaise dst (d.cut dst).2 tag).lin.Positive := fun k r hk => h.positive k r (hrefs ▸ hk)
  have hheld : Backed (fun x => (d.st.ceilingRaise dst (d.cut dst).2 tag).lin.refsOf x ≠ none) (d.held dst).list :=
    (hd.held_backed h hr).mono fun k hk => hrefs ▸ hk
  obtain ⟨htally, hposit, hbl, hcl⟩ := hm.released (pre := (d.held dst).list) (hd.shaped.content_bounded hr).1.2.1 hheld hpos (gone := d.gone)
    (out := (b.putContent dst c).outerKeys) fun k _ => by
      have h1 := Lineage.outerKeys_putContent hb.receives c k
      have h2 := hd.keys k
      rw [hshape.outerKeys, hshape.content dst] at h1
      change _ + (keysOf (d.held dst).list).count k = _ + (keysOf (d.merge dst tag).final).count k at h1
      omega
  have hmcolls : (d.merge dst tag).st.lin.colls = l.colls := by
    rw [d.merge_lin tag hr]
    exact ((Lineage.records_putContent _ dst _).1).trans hd.colls
  refine ⟨htally.of_counts hsame, fun x r hx => hposit x r (hsame.refs ▸ hx), ?_, ?_, ?_⟩
  · rw [hpc, hcolls]
    exact hcl.trans (hmcolls ▸ h.collRoom)
  · rw [hpb, hblends]
    exact hbl.trans hm.formed.room
  · refine (hshape.shaped hd.shaped).putContent hb.receives (hd.final_bounded hr tag hm) fun hkd => ?_
    obtain ⟨x, y, z, hv⟩ := hshape.vessels dst
    rw [hv] at hkd ⊢
    exact hst hkd

end delivery

/-! ## The transfer -/

section transfer

variable {s : State} {src dst : Nat} (h : s.lin.Sound)
include h

/-- What R27 asks of a destination, where the lineage state is sound. -/
theorem Lineage.Sound.deliverable (hb : (s.lin.vessel dst).kind = .store ∨ (s.lin.vessel dst).kind = .filler)
    (hc : s.lin.isCleaning dst = false) : Deliverable s.lin dst := by
  rcases hb with hk | hk
  · exact .inl hk
  · have hlt : dst < 64 := s.lin.vessel_lt (by rw [hk]; decide)
    have h8 : (s.lin.vessel dst).fillerIndex < 8 := (h.shaped.vessels dst hlt).fillerIndex
    have hnc : (s.lin.filler (s.lin.vessel dst).fillerIndex).state ≠ .cleaning := fun e => by
      rw [(Lineage.isCleaning_filler hk).mpr e] at hc
      cases hc
    refine .inr ⟨hk, h8, ?_⟩
    cases hs : (s.lin.filler (s.lin.vessel dst).fillerIndex).state with
    | idle => exact .inl rfl
    | cleaning => exact absurd hs hnc
    | batchOpen =>
      have hring := (h.shaped.fillers _ h8).openBatch hs
      refine .inr ?_
      rw [Lineage.openBatchOf, Filler.openBatch, if_pos (beq_iff_eq.mpr hs), List.getLast?_isSome]
      exact hring

theorem State.prepareDst_sound (tag : Nat) (doubt : Bool)
    (hb : (s.lin.vessel dst).kind = .store ∨ (s.lin.vessel dst).kind = .filler) :
    (s.prepareDst dst tag doubt).lin.Sound := by
  have hlt : dst < 64 := s.lin.vessel_lt (by rcases hb with hk | hk <;> rw [hk] <;> decide)
  have hx := h.shaped.vessels dst hlt
  rcases hb with hk | hk
  · by_cases hs : (s.lin.vessel dst).state = .unseeded
    · rw [State.prepareDst_unseeded tag doubt hk hs]
      have hnil : (s.lin.vessel dst).list = [] := (hx.store hk).2.1 (by rw [hs]; nofun)
      refine h.of_shape rfl rfl (fun x => ?_) (h.shaped.setVessel hlt hx.emptied rfl rfl rfl fun e => by cases hk.symm.trans e)
      have hset := s.lin.outerKeys_setVessel x hlt { s.lin.vessel dst with
        state := .holding, list := [], cat := some 0, uncertain := true }
      rw [hnil] at hset
      exact Nat.add_right_cancel hset
    · rw [State.prepareDst_store tag doubt hk hs]
      exact h
  · by_cases hs : (s.lin.filler (s.lin.vessel dst).fillerIndex).state = .idle
    · rw [State.prepareDst_idle tag doubt hk hs]
      have hv : s.lin.fillerVessel (s.lin.vessel dst).fillerIndex ≠ none := fun e => by
        have := List.find?_eq_none.mp e dst (List.mem_range.mpr hlt)
        simp [hk] at this
      have hopen := State.openBatch_sound h hx.fillerIndex hv (s.lin.vessel dst) (s.lin.vessel dst).autoProduct none .auto tag
      dsimp only
      split
      · exact (Alike.setUncertain _ _).sound hopen
      · exact hopen
    · rw [State.prepareDst_filler tag doubt hk hs]
      exact h

/-- A transfer leaves a sound lineage state (R27). -/
theorem State.transfer_sound {v : Nat} (tag : Nat) (doubt : Bool) (hne : src ≠ dst) (hv : 0 < v)
    (ha : (s.lin.vessel src).kind = .store ∨ (s.lin.vessel src).kind = .bay)
    (hb : (s.lin.vessel dst).kind = .store ∨ (s.lin.vessel dst).kind = .filler) (hc : s.lin.isCleaning dst = false) :
    (s.transfer src dst v tag doubt).st.lin.Sound := by
  have hlt : dst < 64 := s.lin.vessel_lt (by rcases hb with hk | hk <;> rw [hk] <;> decide)
  have hempty : (s.lin.vessel dst).kind = .store → (s.lin.vessel dst).state = .unseeded → (s.lin.vessel dst).list = [] :=
    fun hk hs => ((h.shaped.vessels dst hlt).store hk).2.1 (by rw [hs]; nofun)
  have hdel := h.deliverable hb hc
  have hfrom := State.draw_from (v := v) (tag := tag) (doubt := doubt) hne ha hdel hc hempty
  have hprep := s.prepareDst_prepared tag doubt hdel hc hempty
  have hsound := State.prepareDst_sound h tag doubt hb
  have hdrains := State.draw_drains (v := v) hsound (by rw [hprep.vessels src hne]; exact ha) hv dst tag
  rw [s.transfer_eq src dst tag v doubt]
  obtain ⟨xs, hsrc⟩ := hfrom.source
  refine hdrains.deliver_sound hsound hfrom.receives hne (by rw [hsrc]; exact ha) fun hk => ?_
  have hkind : (s.lin.vessel dst).kind = .store := by
    rcases hb with hb | hb
    · exact hb
    · rw [hfrom.filler hb] at hk
      exact hk
  rw [hfrom.store hkind]
  rfl

end transfer

end Sys2Proof.Machine

/-! What keeps a lineage state sound: transfers by hand and by meter (R43, R44, R89 to R93). -/

namespace Sys2Proof.Machine

open Sys2Proof

theorem State.opManual_sound {s : State} (h : s.lin.Sound) (tag src dst v : Nat) :
    (s.opManual tag src dst v).1.lin.Sound := by
  by_cases hdone : s.lin.checkManual src dst v = .done
  · have hop : (s.opManual tag src dst v).1 = (s.transfer src dst v tag false).st := by
      unfold State.opManual
      dsimp only
      rw [if_pos (beq_iff_eq.mpr hdone)]
    rw [hop]
    rw [Lineage.checkManual_eq] at hdone
    split at hdone
    · cases hdone
    · rename_i hargs
      split at hdone
      · cases hdone
      · rename_i hclean
        simp only [not_or, not_and_or, not_not, Nat.not_lt, ne_eq] at hargs
        obtain ⟨_, _, hne, hv, _, ha, hb⟩ := hargs
        exact State.transfer_sound h tag false hne (Nat.pos_of_ne_zero hv) ha hb
          (Bool.eq_false_iff.mpr fun e => hclean (.inr e))
  · rw [State.opManual_refused rfl hdone]
    exact h

/-! ## Metered flow -/

section meter

variable {l k : Lineage}

theorem SameShape.isCleaning (h : SameShape l k) (v : Nat) : k.isCleaning v = l.isCleaning v := by
  obtain ⟨c, u, s, hv⟩ := h.vessels v
  have hf := (h.fillers (l.vessel v).fillerIndex).1
  unfold Lineage.isCleaning Lineage.vesselState
  rw [hv]
  dsimp only
  rw [hf]

theorem Alike.setMeter (l : Lineage) (m : Nat) (x : Meter) : Alike l (l.setMeter m x) :=
  .of_parts rfl rfl rfl rfl rfl rfl rfl

/-- A volume counted and flags of vessels set. -/
theorem Alike.charged (l : Lineage) (now : TimeStamp) (m v : Nat) (jump : Bool) (f : SegFlags → SegFlags) (vs : List Nat) :
    Alike l ((l.charged now m v jump f).setUncertainAll vs) :=
  (Alike.setMeter l m _).trans (.setUncertainAll vs _)

/-- The kinds of vessels that a route may name (R82). -/
def Lineage.RouteKinds (l : Lineage) (p : Route) : Prop :=
  ((l.vessel p.src).kind = .store ∨ (l.vessel p.src).kind = .bay) ∧
    ((l.vessel p.dst).kind = .store ∨ (l.vessel p.dst).kind = .filler)

/-- A resolution names vessels of the kinds of its entry. -/
theorem Shaped.resolve_kinds (h : Shaped l) {m : Nat} {p : Route} (hp : l.resolve m = some p) : l.RouteKinds p := by
  obtain ⟨i, hi, rfl⟩ := Option.map_eq_some_iff.mp hp
  have h128 : i < 128 := List.mem_range.mp (List.mem_of_find?_eq_some hi)
  have hvalid : (l.activeEntry i).valid = true := by
    have := List.find?_some hi
    rw [Bool.and_eq_true] at this
    exact ((l.entryHolds_iff _).mp this.2).1
  have hroutable : l.routable (l.activeEntry i) := by
    unfold Lineage.activeEntry
    cases l.active with
    | a => exact (h.banks i h128).1
    | b => exact (h.banks i h128).2
  obtain ⟨_, _, hsrc, hdst⟩ := hroutable hvalid
  exact ⟨hsrc, hdst⟩

variable {s : State} (h : s.lin.Sound)
include h

theorem State.flow_sound {m : Nat} (hm : m < 48) {v : Nat} (hv : 0 < v) (tag : Nat)
    (hroute : ∀ p, (s.lin.meter m).route = some p → s.lin.RouteKinds p) : (s.flow m v tag).lin.Sound := by
  have hcharged : ∀ f vs, ((s.lin.charged s.now m v ((s.lin.meter m).jumps v) f).setUncertainAll vs).Sound := fun f vs =>
    (Alike.charged s.lin s.now m v _ f vs).sound h
  cases hr : (s.lin.meter m).route with
  | none =>
    rw [s.flow_unrouted hm v tag hr]
    exact hcharged _ _
  | some p =>
    by_cases hp : p.src = p.dst
    · rw [s.flow_loop hm v tag hr hp]
      exact hcharged (fun f => { f with sameVessel := true }) []
    · by_cases hc : s.lin.isCleaning p.src = true ∨ s.lin.isCleaning p.dst = true
      · rw [s.flow_cleaning hm v tag hr hp hc]
        exact hcharged _ _
      · obtain ⟨hc1, hc2⟩ := not_or.mp hc
        have hcase := hr ▸ Lineage.flowCase_routed hp (Bool.eq_false_iff.mpr hc1) (Bool.eq_false_iff.mpr hc2)
        obtain ⟨hsrc, hdst⟩ := hroute p hr
        rw [s.flow_routed hm v tag hcase]
        have hu := s.flowCap_eq hm v tag hcase
        generalize (s.charge m v tag id).flowCap m p.src p.dst v tag = u at hu
        have ha : Alike s.lin u.lin := by
          rw [hu]
          exact .charged s.lin s.now m v _ _ _
        have hkind : ∀ w, (u.lin.vessel w).kind = (s.lin.vessel w).kind := fun w => by
          obtain ⟨x, y, z, hw⟩ := ha.vessels w
          rw [hw]
        exact State.transfer_sound (ha.sound h) tag _ hp (by omega) (by rw [hkind]; exact hsrc) (by rw [hkind]; exact hdst)
          (by rw [ha.isCleaning]; exact Bool.eq_false_iff.mpr hc2)

theorem State.opMeter_sound (hroutes : s.lin.routesResolved) (tag m T : Nat) : (s.opMeter tag m T).lin.Sound := by
  have hset : ∀ x, (s.lin.setMeter m x).Sound := fun x => (Alike.setMeter s.lin m x).sound h
  cases hc : (s.lin.meter m).configured with
  | false =>
    rw [State.opMeter_unconfigured hc]
    exact h
  | true =>
    have hm : m < 48 := by
      by_contra hm
      have : s.lin.meter m = {} := by simp [Lineage.meter, vget, hm]
      rw [this] at hc
      cases hc
    cases hr : (s.lin.meter m).refValid with
    | false =>
      rw [State.opMeter_first hc hr]
      exact hset _
    | true =>
      by_cases hd : (s.lin.meter m).delta T < 2 ^ ((s.lin.meter m).width - 1)
      · rw [State.opMeter_forward hc hr hd]
        split
        · exact hset _
        · rename_i hv
          refine State.flow_sound (hset _) hm (Nat.pos_of_ne_zero hv) tag fun p hp => ?_
          rw [State.setLin_lin, Lineage.setMeter_same hm] at hp
          exact h.shaped.resolve_kinds ((hroutes m hm).symm.trans hp)
      · rw [State.opMeter_backward hc hr (Nat.le_of_not_lt hd), State.raise_lin]
        exact hset _

end meter

end Sys2Proof.Machine

/-! What keeps a lineage state sound: a vessel loaded (R2 to R4). -/

namespace Sys2Proof.Machine

open Sys2Proof

/-! ## A vessel replaced -/

/-- A lineage state with another configuration of one vessel: the rings and fillers that no vessel carried may be fresh,
what the vessel gives up is empty. -/
structure Reloaded (l k : Lineage) (v : Nat) (y : Vessel) : Prop where
  vessel : ∀ u, k.vessel u = if u = v then y else l.vessel u
  list : y.list = (l.vessel v).list
  ok : y.Ok
  rings : ∀ b, b < 8 → k.ring b = l.ring b ∨ (k.ring b = Ring.cleared ∧ l.bayVessel b = none)
  fillers : ∀ f, f < 8 → k.filler f = l.filler f ∨ (k.filler f = {} ∧ l.fillerVessel f = none)
  untaken : y.kind = .bay → ∀ u, u < 64 → u ≠ v → (l.vessel u).kind = .bay → (l.vessel u).bayIndex ≠ y.bayIndex
  cleaning : y.kind = .bay → y.state = .cleaning →
    (l.vessel v).kind = .bay ∧ (l.vessel v).state = .cleaning ∧ y.bayIndex = (l.vessel v).bayIndex
  bay : (l.vessel v).kind = .bay → (y.kind = .bay ∧ y.bayIndex = (l.vessel v).bayIndex) ∨
    (l.ring (l.vessel v).bayIndex).occupied = []
  filler : (l.vessel v).kind = .filler → (y.kind = .filler ∧ y.fillerIndex = (l.vessel v).fillerIndex) ∨
    (l.filler (l.vessel v).fillerIndex).ring = []
  colls : k.colls = l.colls
  blends : k.blends = l.blends
  banks : ∀ i, i < 128 → k.routable (vget k.bankA i {}) ∧ k.routable (vget k.bankB i {})

section reloaded

variable {l k : Lineage} {v : Nat} {y : Vessel} (h : l.Sound) (r : Reloaded l k v y)

include r in
theorem Reloaded.ring_empty {b : Nat} (hb : b < 8) (he : (l.ring b).occupied = []) : (k.ring b).occupied = [] := by
  rcases r.rings b hb with e | ⟨e, _⟩
  · rw [e]
    exact he
  · rw [e]
    exact Ring.cleared_occupied

include r in
theorem Reloaded.filler_empty {f : Nat} (hf : f < 8) (he : (l.filler f).ring = []) : (k.filler f).ring = [] := by
  rcases r.fillers f hf with e | ⟨e, _⟩
  · rw [e]
    exact he
  · rw [e]

include h r

theorem Reloaded.outerKeys : k.outerKeys = l.outerKeys := by
  have hvessels : k.vessels.toList.flatMap (fun v => keysOf v.list) = l.vessels.toList.flatMap (fun v => keysOf v.list) := by
    rw [toList_eq_map_vget k.vessels {}, toList_eq_map_vget l.vessels {}, List.flatMap_map, List.flatMap_map]
    refine List.flatMap_congr fun u _ => ?_
    change keysOf (k.vessel u).list = keysOf (l.vessel u).list
    rw [r.vessel]
    split
    · rename_i e
      rw [e, r.list]
    · rfl
  have hrings : k.rings.toList.flatMap Ring.keys = l.rings.toList.flatMap Ring.keys := by
    rw [toList_eq_map_vget k.rings {}, toList_eq_map_vget l.rings {}, List.flatMap_map, List.flatMap_map]
    refine List.flatMap_congr fun b hb => ?_
    have hb8 := List.mem_range.mp hb
    change (k.ring b).keys = (l.ring b).keys
    rcases r.rings b hb8 with e | ⟨e, hn⟩
    · rw [e]
    · rw [e, Ring.cleared_keys, ← (h.shaped.rings b hb8).keysIn_occupied, h.shaped.freeRings b hb8 hn]
      rfl
  have hfillers : k.fillers.toList.flatMap Filler.keys = l.fillers.toList.flatMap Filler.keys := by
    rw [toList_eq_map_vget k.fillers {}, toList_eq_map_vget l.fillers {}, List.flatMap_map, List.flatMap_map]
    refine List.flatMap_congr fun f hf => ?_
    have hf8 := List.mem_range.mp hf
    change (k.filler f).keys = (l.filler f).keys
    rcases r.fillers f hf8 with e | ⟨e, hn⟩
    · rw [e]
    · rw [e, Filler.keys, Filler.keys, h.shaped.freeFillers f hf8 hn]
  rw [Lineage.outerKeys, Lineage.outerKeys, hvessels, hrings, hfillers]

/-- A bay that no vessel carries now was carried by none, or by the vessel that gives it up. -/
theorem Reloaded.freeRing {b : Nat} (hb : b < 8) (hn : k.bayVessel b = none) : (k.ring b).occupied = [] := by
  refine r.ring_empty hb ?_
  cases hl : l.bayVessel b with
  | none => exact h.shaped.freeRings b hb hl
  | some u =>
    obtain ⟨hu, hku, hbu⟩ := Lineage.bayVessel_some hl
    have hnot := List.find?_eq_none.mp hn u (List.mem_range.mpr hu)
    by_cases e : u = v
    · subst e
      rw [r.vessel, if_pos rfl] at hnot
      rcases r.bay hku with ⟨hky, hby⟩ | he
      · simp [hky, hby, hbu] at hnot
      · exact hbu ▸ he
    · rw [r.vessel, if_neg e] at hnot
      simp [hku, hbu] at hnot

theorem Reloaded.freeFiller {f : Nat} (hf : f < 8) (hn : k.fillerVessel f = none) : (k.filler f).ring = [] := by
  refine r.filler_empty hf ?_
  cases hl : l.fillerVessel f with
  | none => exact h.shaped.freeFillers f hf hl
  | some u =>
    obtain ⟨hu, hku, hfu⟩ := Lineage.fillerVessel_some hl
    have hnot := List.find?_eq_none.mp hn u (List.mem_range.mpr hu)
    by_cases e : u = v
    · subst e
      rw [r.vessel, if_pos rfl] at hnot
      rcases r.filler hku with ⟨hky, hfy⟩ | he
      · simp [hky, hfy, hfu] at hnot
      · exact hfu ▸ he
    · rw [r.vessel, if_neg e] at hnot
      simp [hku, hfu] at hnot

theorem Reloaded.shaped : Shaped k := by
  refine ⟨fun u hu => ?_, fun f hf => ?_, fun b hb => ?_, fun u hu hk hs => ?_, fun u w hu hw hku hkw he => ?_,
    fun b hb hn => r.freeRing h hb hn, fun f hf hn => r.freeFiller h hf hn, r.banks⟩
  · rw [r.vessel]
    split
    · exact r.ok
    · exact h.shaped.vessels u hu
  · rcases r.fillers f hf with e | ⟨e, _⟩
    · rw [e]
      exact h.shaped.fillers f hf
    · rw [e]
      exact ⟨fun _ hb => absurd hb List.not_mem_nil, nofun⟩
  · rcases r.rings b hb with e | ⟨e, _⟩
    · rw [e]
      exact h.shaped.rings b hb
    · rw [e]
      exact Ring.cleared_ok
  · rw [r.vessel] at hk hs ⊢
    split at hk
    · rename_i e
      rw [if_pos e] at hs ⊢
      obtain ⟨hkv, hsv, hi⟩ := r.cleaning hk hs
      rw [hi]
      exact r.ring_empty (h.shaped.vessels v (e ▸ hu)).bayIndex (h.shaped.cleaning v (e ▸ hu) hkv hsv)
    · rename_i e
      rw [if_neg e] at hs ⊢
      exact r.ring_empty (h.shaped.vessels u hu).bayIndex (h.shaped.cleaning u hu hk hs)
  · rw [r.vessel] at hku
    rw [r.vessel] at hkw
    rw [r.vessel, r.vessel] at he
    by_cases eu : u = v
    · by_cases ew : w = v
      · exact eu.trans ew.symm
      · rw [if_pos eu] at hku he
        rw [if_neg ew] at hkw he
        exact absurd he.symm (r.untaken hku w hw ew hkw)
    · rw [if_neg eu] at hku he
      by_cases ew : w = v
      · rw [if_pos ew] at hkw he
        exact absurd he (r.untaken hkw u hu eu hku)
      · rw [if_neg ew] at hkw he
        exact h.shaped.bayIndices u w hu hw hku hkw he

theorem Reloaded.sound : k.Sound := by
  have hsame : SameCounts l k := .of_eq r.colls r.blends
  exact ⟨r.outerKeys h ▸ h.tallied.of_counts hsame, fun x n hx => h.positive x n (hsame.refs ▸ hx), r.colls ▸ h.collRoom,
    r.blends ▸ h.blendRoom, r.shaped h⟩

end reloaded

/-! ## LOAD_VESSEL -/

section load

variable {l : Lineage} {v : Nat} {cfg : VesselCfg}

theorem Lineage.checkLoadVessel_done (hc : l.checkLoadVessel v cfg = .done) :
    v < 64 ∧ cfg.inRange = true ∧ l.indexTaken v cfg = false ∧ ((l.vessel v).changes cfg = true → l.inUse v = false) := by
  unfold Lineage.checkLoadVessel at hc
  split at hc
  · cases hc
  · rename_i hargs
    split at hc
    · cases hc
    · rename_i htaken
      split at hc
      · cases hc
      · rename_i huse
        simp only [Bool.or_eq_true, decide_eq_true_eq, Bool.not_eq_true', not_or, Bool.not_eq_false] at hargs
        rw [Bool.and_eq_true, not_and, Bool.not_eq_true] at huse
        exact ⟨by omega, hargs.2, Bool.eq_false_iff.mpr htaken, huse⟩

/-- The vessel entry that a LOAD_VESSEL configures. -/
def Lineage.loadBase (l : Lineage) (v : Nat) (cfg : VesselCfg) : Vessel :=
  if (l.vessel v).changes cfg then freshVessel cfg else l.vessel v

theorem freshVessel_list (cfg : VesselCfg) : (freshVessel cfg).list = [] ∧ (freshVessel cfg).state ≠ .cleaning := by
  cases cfg <;> exact ⟨rfl, nofun⟩

theorem Vessel.configure_content (x : Vessel) (hin : cfg.inRange = true) : (x.configure cfg).list = x.list ∧
    (x.configure cfg).state = x.state := by
  cases cfg with
  | unknown k => cases hin
  | _ => exact ⟨rfl, rfl⟩

/-- A vessel that is not in use holds nothing. -/
theorem Lineage.Sound.list_of_unused (h : l.Sound) (hv : v < 64) (hu : l.inUse v = false) : (l.vessel v).list = [] := by
  by_cases hk : (l.vessel v).kind = .store
  · by_cases hs : (l.vessel v).state = .holding
    · by_contra hne
      exact Bool.eq_false_iff.mp hu ((l.inUse_iff v).mpr (.inl ⟨hk, hs, hne⟩))
    · exact ((h.shaped.vessels v hv).store hk).2.1 hs
  · exact (h.shaped.vessels v hv).other hk

variable (h : l.Sound) (hc : l.checkLoadVessel v cfg = .done)
include h hc

theorem Lineage.Sound.load_list : ((l.loadBase v cfg).configure cfg).list = (l.vessel v).list := by
  obtain ⟨hv, hin, _, hunused⟩ := Lineage.checkLoadVessel_done hc
  rw [(Vessel.configure_content _ hin).1]
  unfold Lineage.loadBase
  split
  · rename_i hch
    rw [(freshVessel_list cfg).1, h.list_of_unused hv (hunused hch)]
  · rfl

theorem Lineage.Sound.load_ok : ((l.loadBase v cfg).configure cfg).Ok := by
  obtain ⟨hv, hin, _, _⟩ := Lineage.checkLoadVessel_done hc
  have hx := h.shaped.vessels v hv
  have hbase : (cfg.vesselKind = .store → ListBounded (l.loadBase v cfg).list ∧
        ((l.loadBase v cfg).state ≠ .holding → (l.loadBase v cfg).list = [])) ∧
      (cfg.vesselKind ≠ .store → (l.loadBase v cfg).list = []) := by
    unfold Lineage.loadBase
    split
    · rw [(freshVessel_list cfg).1]
      exact ⟨fun _ => ⟨listBounded_nil, fun _ => rfl⟩, fun _ => rfl⟩
    · rename_i hch
      have hk := Vessel.kind_of_not_changes cfg hin (Bool.eq_false_iff.mpr hch)
      exact ⟨fun e => ⟨(hx.store (hk.trans e)).1, (hx.store (hk.trans e)).2.1⟩, fun e => hx.other (hk ▸ e)⟩
  generalize l.loadBase v cfg = z at hbase
  have hrange := (vesselCfg_inRange_iff cfg).mp hin
  obtain ⟨hs, ho⟩ := hbase
  cases cfg with
  | unknown k => cases hin
  | unconfigured => exact ⟨nofun, fun _ => ho nofun, Nat.zero_lt_succ _, Nat.zero_lt_succ _⟩
  | store c =>
    obtain ⟨hb, he⟩ := hs rfl
    refine ⟨fun _ => ⟨hb, he, ?_⟩, fun e => absurd rfl e, Nat.zero_lt_succ _, Nat.zero_lt_succ _⟩
    change c ≤ 1000000000
    have : c ≤ 500000000 := hrange.2
    omega
  | bay i t => exact ⟨nofun, fun _ => ho nofun, Nat.lt_succ_of_le hrange.1, Nat.zero_lt_succ _⟩
  | filler i n c p t a => exact ⟨nofun, fun _ => ho nofun, Nat.zero_lt_succ _, Nat.lt_succ_of_le hrange.1⟩

omit h in
/-- The index that a LOAD_VESSEL newly takes is carried by no vessel. -/
theorem Lineage.load_index_free (hch : (l.vessel v).changes cfg = true) :
    (∀ i t, cfg = .bay i t → l.bayVessel i = none) ∧
      (∀ i n c p t a, cfg = .filler i n c p t a → l.fillerVessel i = none) := by
  obtain ⟨_, _, htaken, _⟩ := Lineage.checkLoadVessel_done hc
  have hfree := mt (l.indexTaken_iff v cfg).mpr (Bool.eq_false_iff.mp htaken)
  constructor
  · rintro i t rfl
    refine List.find?_eq_none.mpr fun u hu hm => ?_
    rw [Bool.and_eq_true, beq_iff_eq, beq_iff_eq] at hm
    by_cases e : u = v
    · subst e
      simp [Vessel.changes, hm.1, hm.2] at hch
    · exact hfree ⟨u, List.mem_range.mp hu, e, hm⟩
  · rintro i n c p t a rfl
    refine List.find?_eq_none.mpr fun u hu hm => ?_
    rw [Bool.and_eq_true, beq_iff_eq, beq_iff_eq] at hm
    by_cases e : u = v
    · subst e
      simp [Vessel.changes, hm.1, hm.2] at hch
    · exact hfree ⟨u, List.mem_range.mp hu, e, hm⟩

omit h in
theorem Lineage.load_rings {b : Nat} (hb : b < 8) : (l.applyLoadVessel v cfg).ring b = l.ring b ∨
    ((l.applyLoadVessel v cfg).ring b = Ring.cleared ∧ l.bayVessel b = none) := by
  have hrings := (l.applyLoadVessel_parts v cfg).1
  unfold Lineage.ring
  rw [hrings]
  cases hch : (l.vessel v).changes cfg with
  | false => exact .inl rfl
  | true =>
    have hfree := (Lineage.load_index_free hc hch).1
    rw [if_pos rfl]
    cases cfg with
    | bay i t =>
      by_cases e : i = b
      · subst e
        exact .inr ⟨vget_vset_same _ _ _ _ hb, hfree i t rfl⟩
      · exact .inl (vget_vset_ne _ _ _ _ _ e)
    | _ => exact .inl rfl

omit h in
theorem Lineage.load_fillers {f : Nat} (hf : f < 8) : (l.applyLoadVessel v cfg).filler f = l.filler f ∨
    ((l.applyLoadVessel v cfg).filler f = {} ∧ l.fillerVessel f = none) := by
  have hfillers := (l.applyLoadVessel_parts v cfg).2
  unfold Lineage.filler
  rw [hfillers]
  cases hch : (l.vessel v).changes cfg with
  | false => exact .inl rfl
  | true =>
    have hfree := (Lineage.load_index_free hc hch).2
    rw [if_pos rfl]
    cases cfg with
    | filler i n c p t a =>
      by_cases e : i = f
      · subst e
        exact .inr ⟨vget_vset_same _ _ _ _ hf, hfree i n c p t a rfl⟩
      · exact .inl (vget_vset_ne _ _ _ _ _ e)
    | _ => exact .inl rfl

omit h hc in
/-- An entry whose kind and index stay keeps them. -/
theorem Vessel.index_of_not_changes {x : Vessel} (z : Vessel) (hch : x.changes cfg = false) :
    (cfg.vesselKind = .bay → (z.configure cfg).bayIndex = x.bayIndex) ∧
      (cfg.vesselKind = .filler → (z.configure cfg).fillerIndex = x.fillerIndex) := by
  cases cfg with
  | bay i t =>
    simp only [Vessel.changes, Bool.not_eq_false', Bool.and_eq_true, beq_iff_eq] at hch
    exact ⟨fun _ => hch.2.symm, nofun⟩
  | filler i n c p t a =>
    simp only [Vessel.changes, Bool.not_eq_false', Bool.and_eq_true, beq_iff_eq] at hch
    exact ⟨nofun, fun _ => hch.2.symm⟩
  | _ => exact ⟨nofun, nofun⟩

/-- What a LOAD_VESSEL leaves of the routing: each valid entry names vessels of the kinds R82 allows (R4). -/
theorem Lineage.Sound.load_banks (k : Bank) {i : Nat} (hi : i < 128) :
    (l.applyLoadVessel v cfg).routable (vget ((l.applyLoadVessel v cfg).bank k) i {}) := by
  obtain ⟨hv, hin, _, hunused⟩ := Lineage.checkLoadVessel_done hc
  have hold : ∀ k, l.routable (vget (l.bank k) i {}) := fun k => by
    cases k with
    | a => exact (h.shaped.banks i hi).1
    | b => exact (h.shaped.banks i hi).2
  have hvessel : ∀ u, (l.applyLoadVessel v cfg).vessel u =
      if u = v then (l.loadBase v cfg).configure cfg else l.vessel u := fun u => by
    unfold Lineage.vessel
    rw [l.applyLoadVessel_vessels v cfg, vget_vset]
    exact if_congr ⟨fun e => e.1.symm, fun e => ⟨e.symm, hv⟩⟩ rfl rfl
  have hkind : ∀ u, ((l.applyLoadVessel v cfg).vessel u).kind = if u = v then cfg.vesselKind else (l.vessel u).kind := fun u => by
    rw [hvessel]
    split
    · exact Vessel.configure_kind cfg _ hin
    · rfl
  by_cases hsame : (l.vessel v).kind = cfg.vesselKind
  · have hkinds : ∀ u, ((l.applyLoadVessel v cfg).vessel u).kind = (l.vessel u).kind := fun u => by
      rw [hkind]
      split
      · rename_i e
        rw [e, hsame]
      · rfl
    have hbank : (l.applyLoadVessel v cfg).bank k = l.bank k := by
      obtain ⟨_, _, _, _, _, _, hactive⟩ := l.applyLoadVessel_eq v cfg
      have hinactive := l.applyLoadVessel_inactive v cfg hin
      rw [if_pos hsame] at hinactive
      revert hactive hinactive
      cases l.active <;> cases k <;> exact fun h1 h2 => by assumption
    unfold Lineage.routable
    rw [hbank, hkinds, hkinds]
    exact hold k
  · have hch : (l.vessel v).changes cfg = true := by
      by_contra hn
      exact hsame (Vessel.kind_of_not_changes cfg hin (Bool.eq_false_iff.mpr hn))
    have hnames := hunused hch
    by_cases hk : k = l.active
    · obtain ⟨_, _, _, _, _, _, hactive⟩ := l.applyLoadVessel_eq v cfg
      subst hk
      rw [hactive]
      intro hvalid
      obtain ⟨hsrc, hdst, ha, hb⟩ := hold l.active hvalid
      have hnot : ∀ u, (vget (l.bank l.active) i {}).src = u ∨ (vget (l.bank l.active) i {}).dst = u → u ≠ v :=
        fun u hu e => Bool.eq_false_iff.mp hnames ((l.inUse_iff v).mpr (.inr (.inr (.inr ⟨i, hi, hvalid, e ▸ hu⟩))))
      rw [hkind, hkind, if_neg (hnot _ (.inl rfl)), if_neg (hnot _ (.inr rfl))]
      exact ⟨hsrc, hdst, ha, hb⟩
    · have hother : k = l.active.other := by
        revert hk
        cases k <;> cases l.active <;> simp [Bank.other]
      subst hother
      rw [l.applyLoadVessel_inactive v cfg hin, if_neg hsame, vget_spoilBank v _ _ hi]
      generalize he : vget (l.bank l.active.other) i {} = e
      have hrout := hold l.active.other
      rw [he] at hrout
      split
      · exact fun hvalid => by cases hvalid
      · rename_i hforbid
        intro hvalid
        obtain ⟨hsrc, hdst, ha, hb⟩ := hrout hvalid
        rw [hkind, hkind]
        refine ⟨hsrc, hdst, ?_, ?_⟩
        · split
          · rename_i es
            revert hforbid
            cases cfg.vesselKind <;> simp [RouteEntry.forbids, es]
          · exact ha
        · split
          · rename_i ed
            revert hforbid
            cases cfg.vesselKind <;> simp [RouteEntry.forbids, ed]
          · exact hb

theorem Lineage.Sound.load_reloaded : Reloaded l (l.applyLoadVessel v cfg) v ((l.loadBase v cfg).configure cfg) := by
  obtain ⟨hv, hin, htaken, hunused⟩ := Lineage.checkLoadVessel_done hc
  have hkind := Vessel.configure_kind cfg (l.loadBase v cfg) hin
  have hcontent := Vessel.configure_content (l.loadBase v cfg) hin
  have hkept : (l.vessel v).changes cfg = false → (l.vessel v).kind = cfg.vesselKind :=
    Vessel.kind_of_not_changes cfg hin
  have hindex := fun hch => Vessel.index_of_not_changes (x := l.vessel v) (cfg := cfg) (l.loadBase v cfg) hch
  obtain ⟨_, _, _, _, _, heq, _⟩ := l.applyLoadVessel_eq v cfg
  refine {
    vessel := fun u => ?_
    list := h.load_list hc
    ok := h.load_ok hc
    rings := fun b hb => Lineage.load_rings hc hb
    fillers := fun f hf => Lineage.load_fillers hc hf
    untaken := fun hk u hu hne hku he => ?_
    cleaning := fun hk hs => ?_
    bay := fun hk => ?_
    filler := fun hk => ?_
    colls := by rw [heq]
    blends := by rw [heq]
    banks := fun i hi => ⟨h.load_banks hc .a hi, h.load_banks hc .b hi⟩ }
  · unfold Lineage.vessel
    rw [l.applyLoadVessel_vessels v cfg, vget_vset]
    exact if_congr ⟨fun e => e.1.symm, fun e => ⟨e.symm, hv⟩⟩ rfl rfl
  · rw [hkind] at hk
    refine Bool.eq_false_iff.mp htaken ((l.indexTaken_iff v cfg).mpr ⟨u, hu, hne, ?_⟩)
    cases cfg with
    | bay i t => exact ⟨hku, he⟩
    | _ => cases hk
  · rw [hcontent.2] at hs
    cases hch : (l.vessel v).changes cfg with
    | true =>
      rw [Lineage.loadBase, if_pos hch] at hs
      exact absurd hs (freshVessel_list cfg).2
    | false =>
      rw [Lineage.loadBase, hch] at hs
      exact ⟨(hkept hch).trans (hkind.symm.trans hk), hs, (hindex hch).1 (hkind.symm.trans hk)⟩
  · cases hch : (l.vessel v).changes cfg with
    | true =>
      refine .inr (not_not.mp fun hne => ?_)
      exact Bool.eq_false_iff.mp (hunused hch) ((l.inUse_iff v).mpr
        (.inr (.inl ⟨hk, (Ring.occupied_ne_nil _).mp hne⟩)))
    | false => exact .inl ⟨hkind.trans ((hkept hch).symm.trans hk), (hindex hch).1 ((hkept hch).symm.trans hk)⟩
  · cases hch : (l.vessel v).changes cfg with
    | true =>
      refine .inr (not_not.mp fun hne => ?_)
      exact Bool.eq_false_iff.mp (hunused hch) ((l.inUse_iff v).mpr (.inr (.inr (.inl ⟨hk, .inr hne⟩))))
    | false => exact .inl ⟨hkind.trans ((hkept hch).symm.trans hk), (hindex hch).2 ((hkept hch).symm.trans hk)⟩

/-- A LOAD_VESSEL leaves a sound lineage state. -/
theorem Lineage.Sound.applyLoadVessel : (l.applyLoadVessel v cfg).Sound := (h.load_reloaded hc).sound h

end load

end Sys2Proof.Machine

/-! Every step keeps the lineage state sound, O50. -/

namespace Sys2Proof.Machine

open Sys2Proof

/-- A sound lineage state whose routes are resolved. -/
def Lineage.SoundRouted (l : Lineage) : Prop := l.Sound ∧ l.routesResolved

/-! ## The operations -/

theorem TakenEntry.operation_sound (e : TakenEntry) {s : State} (h : s.lin.Sound) (hr : s.lin.routesResolved) :
    (e.operation s).st.lin.Sound := by
  obtain ⟨⟨v, a, t, c⟩, w⟩ := e
  cases v with
  | meter m n => exact State.opMeter_sound h hr t m n
  | valve k x => exact (State.opValve_alike s t k x).sound h
  | switchBank => exact (State.opSwitchBank_alike s t).sound h
  | manifest i => exact State.opManifest_sound h t w i
  | compSelect b x k => exact State.opCompSelect_sound h t b x k
  | compDone b => exact State.opCompDone_sound h t b
  | compReject b x k => exact State.opCompReject_sound h t b x k
  | cipStart v => exact State.opCipStart_sound h t v
  | cipEnd v => exact State.opCipEnd_sound h t v
  | batchOpen f p k => exact State.opBatchOpen_sound h t c f p k
  | batchClose f => exact State.opBatchClose_sound h t f
  | carton f n => exact (State.opCarton_alike s f n).sound h
  | dispatch k n x => exact (State.opDispatch_alike s t k n x).sound h
  | idleClose f n x => exact State.opIdleClose_sound h t f n x
  | gap n => exact (State.opGap_alike s t n).sound h
  | vesselWrite w => exact State.opVesselWrite_sound h t w
  | manualTransfer x y v => exact State.opManual_sound h t x y v
  | suspectKey k => exact State.opMark_sound s t false (.key k) h
  | suspectSample n => exact State.opMark_sound s t false (.sample n) h
  | suspectFarm n => exact State.opMark_sound s t false (.farm n) h
  | releaseKey k => exact State.opMark_sound s t true (.key k) h
  | releaseSample n => exact State.opMark_sound s t true (.sample n) h
  | releaseFarm n => exact State.opMark_sound s t true (.farm n) h
  | holdRelease a => exact (State.opHoldRelease_alike s t a).sound h

/-! ## CLEAR_ENGINE and the tables -/

section clear

variable {l : Lineage}

theorem Vessel.cleared_shape (x : Vessel) : x.cleared.list = [] ∧ x.cleared.kind = x.kind ∧ x.cleared.state ≠ .cleaning ∧
    (x.kind ≠ .unconfigured → x.cleared.bayIndex = x.bayIndex) ∧ (x.Ok → x.cleared.Ok) := by
  unfold Vessel.cleared
  split
  · rename_i hk
    exact ⟨rfl, hk.symm, nofun, fun e => absurd hk e, fun _ => ⟨nofun, fun _ => rfl, Nat.zero_lt_succ _, Nat.zero_lt_succ _⟩⟩
  · exact ⟨rfl, rfl, nofun, fun _ => rfl, fun h => h.emptied⟩
  · exact ⟨rfl, rfl, nofun, fun _ => rfl, fun h => h.emptied⟩
  · exact ⟨rfl, rfl, nofun, fun _ => rfl, fun h => h.emptied⟩

theorem Lineage.Sound.cleared (h : l.Sound) (now : TimeStamp) : (l.cleared now).Sound := by
  have hvessel : ∀ u, u < 64 → (l.cleared now).vessel u = (l.vessel u).cleared := fun u hu => l.cleared_vessel now hu
  have hring : ∀ b, (l.cleared now).ring b = Ring.cleared := fun b => l.cleared_ring now b
  have hfiller : ∀ f, f < 8 → (l.cleared now).filler f = (l.filler f).cleared := fun f hf => l.cleared_filler now hf
  have hcolls : (l.cleared now).colls = [] := by rw [Lineage.cleared_eq]
  have hblends : (l.cleared now).blends = [] := by rw [Lineage.cleared_eq]
  have hbanks : (l.cleared now).bankA = l.bankA ∧ (l.cleared now).bankB = l.bankB := by
    rw [Lineage.cleared_eq]
    exact ⟨rfl, rfl⟩
  have hrefs : ∀ k, (l.cleared now).refsOf k = none := fun k => by
    cases k with
    | unknown => rfl
    | coll n => rw [Lineage.refsOf, Lineage.findColl, hcolls]; rfl
    | blend n => rw [Lineage.refsOf, Lineage.findBlend, hblends]; rfl
  have houter : (l.cleared now).outerKeys = [] := by
    unfold Lineage.outerKeys
    rw [toList_eq_map_vget (l.cleared now).vessels {}, toList_eq_map_vget (l.cleared now).rings {},
      toList_eq_map_vget (l.cleared now).fillers {}, List.flatMap_map, List.flatMap_map, List.flatMap_map]
    refine List.append_eq_nil_iff.mpr ⟨List.append_eq_nil_iff.mpr ⟨?_, ?_⟩, ?_⟩
    · refine List.flatMap_eq_nil_iff.mpr fun u hu => ?_
      change keysOf ((l.cleared now).vessel u).list = []
      rw [hvessel u (List.mem_range.mp hu), (l.vessel u).cleared_shape.1]
      rfl
    · refine List.flatMap_eq_nil_iff.mpr fun b _ => ?_
      change ((l.cleared now).ring b).keys = []
      rw [hring, Ring.cleared_keys]
    · refine List.flatMap_eq_nil_iff.mpr fun f hf => ?_
      change ((l.cleared now).filler f).keys = []
      rw [hfiller f (List.mem_range.mp hf)]
      rfl
  have hmembers : (l.cleared now).memberKeys = [] := by rw [Lineage.memberKeys, hblends]; rfl
  have hkind : ∀ u, u < 64 → ((l.cleared now).vessel u).kind = (l.vessel u).kind := fun u hu => by
    rw [hvessel u hu]
    exact (l.vessel u).cleared_shape.2.1
  have hroutable : ∀ e, l.routable e → (l.cleared now).routable e := fun e he hv => by
    obtain ⟨h1, h2, h3, h4⟩ := he hv
    rw [hkind _ h1, hkind _ h2]
    exact ⟨h1, h2, h3, h4⟩
  refine ⟨⟨?_, ?_, fun k r hk => ?_, fun k _ _ => ?_⟩, fun k r hk => ?_, ?_, ?_, ⟨fun u hu => ?_, fun f hf => ?_, fun b hb => ?_,
    fun u hu _ hs => ?_, fun u w hu hw hku hkw he => ?_, fun b hb _ => ?_, fun f hf _ => ?_, fun i hi => ?_⟩⟩
  · rw [hcolls]
    exact List.nodup_nil
  · rw [Lineage.blendSerials, hblends]
    exact List.nodup_nil
  · rw [hrefs] at hk
    cases hk
  · rw [houter, hmembers]
    rfl
  · rw [hrefs] at hk
    cases hk
  · rw [hcolls]
    exact Nat.zero_le _
  · rw [hblends]
    exact Nat.zero_le _
  · rw [hvessel u hu]
    exact (l.vessel u).cleared_shape.2.2.2.2 (h.shaped.vessels u hu)
  · rw [hfiller f hf]
    exact ⟨fun _ hb => absurd hb List.not_mem_nil, nofun⟩
  · rw [hring]
    exact Ring.cleared_ok
  · rw [hvessel u hu] at hs
    exact absurd hs (l.vessel u).cleared_shape.2.2.1
  · rw [hkind u hu] at hku
    rw [hkind w hw] at hkw
    rw [hvessel u hu, hvessel w hw, (l.vessel u).cleared_shape.2.2.2.1 (by rw [hku]; nofun),
      (l.vessel w).cleared_shape.2.2.2.1 (by rw [hkw]; nofun)] at he
    exact h.shaped.bayIndices u w hu hw hku hkw he
  · rw [hring]
    exact Ring.cleared_occupied
  · rw [hfiller f hf]
    rfl
  · obtain ⟨ha, hb⟩ := h.shaped.banks i hi
    rw [hbanks.1, hbanks.2]
    exact ⟨hroutable _ ha, hroutable _ hb⟩

/-- Filler records that keep their states and batches. -/
theorem Lineage.SameBatches.alike {xs : Vector Filler 8} (h : l.SameBatches xs) : Alike l { l with fillers := xs } := by
  refine ⟨⟨fun _ => ⟨_, _, _, rfl⟩, rfl, fun f => ?_, rfl, rfl⟩, rfl, rfl⟩
  by_cases hf : f < 8
  · obtain ⟨hs, hr⟩ := h f hf
    exact ⟨hs, congrArg (List.map Batch.list) hr⟩
  · have : ∀ ys : Vector Filler 8, vget ys f {} = {} := fun ys => by simp [vget, hf]
    unfold Lineage.filler
    rw [this, this]
    exact ⟨rfl, rfl⟩

/-- An entry that LOAD_ROUTE accepts names vessels of the kinds R82 allows. -/
theorem Lineage.checkLoadRoute_routable {r : RouteArgs} (hc : l.checkLoadRoute r = .done) : l.routable (routeEntryOf r) := by
  intro hvalid
  unfold Lineage.checkLoadRoute at hc
  split at hc
  · cases hc
  · split at hc
    · cases hc
    · split at hc
      · cases hc
      · split at hc
        · cases hc
        · rename_i hok
          have hset : flagSet r.valid = true := hvalid
          rw [hset, Bool.true_and, Bool.not_eq_true', Bool.not_eq_false, Lineage.routeOk_iff] at hok
          obtain ⟨_, hs, hd, hs0, hd0, hsf, hdb, _⟩ := hok
          refine ⟨Nat.lt_succ_of_le hs, Nat.lt_succ_of_le hd, ?_, ?_⟩
          · cases hk : (l.vessel (routeEntryOf r).src).kind with
            | unconfigured => exact absurd hk hs0
            | store => exact .inl rfl
            | bay => exact .inr rfl
            | filler => exact absurd hk hsf
          · cases hk : (l.vessel (routeEntryOf r).dst).kind with
            | unconfigured => exact absurd hk hd0
            | store => exact .inl rfl
            | bay => exact absurd hk hdb
            | filler => exact .inr rfl

theorem Lineage.Sound.setEntry (h : l.Sound) {e : RouteEntry} (he : l.routable e) (k : Bank) (i : Nat) :
    (l.setEntry k i e).Sound := by
  have hentry : ∀ (b : Vector RouteEntry 128) j, l.routable (vget b j {}) → l.routable (vget (vset b i e) j {}) :=
    fun b j hj => by
      rw [vget_vset]
      split
      · exact he
      · exact hj
  obtain ⟨h1, h2, h3, h4, h5, h6, h7, h8⟩ := h.shaped
  cases k with
  | a => exact ⟨h.tallied.of_counts (.of_eq rfl rfl), h.positive, h.collRoom, h.blendRoom,
      ⟨h1, h2, h3, h4, h5, h6, h7, fun j hj => ⟨hentry _ j (h8 j hj).1, (h8 j hj).2⟩⟩⟩
  | b => exact ⟨h.tallied.of_counts (.of_eq rfl rfl), h.positive, h.collRoom, h.blendRoom,
      ⟨h1, h2, h3, h4, h5, h6, h7, fun j hj => ⟨(h8 j hj).1, hentry _ j (h8 j hj).2⟩⟩⟩

end clear

/-! ## The step -/

theorem soundRouted_kept : LinKept Lineage.SoundRouted where
  reset := ⟨lineageSound_reset.sound, routesResolved_kept.reset⟩
  fillers := fun l xs hb h => ⟨hb.alike.sound h.1, routesResolved_kept.fillers l xs hb h.2⟩
  tables := fun l ct a b c h =>
    have hl : Alike l { l with catTab := ct, collNext := a, blendNext := b, batchNext := c } :=
      .of_parts rfl rfl rfl rfl rfl rfl rfl
    ⟨hl.sound h.1, routesResolved_kept.tables l ct a b c h.2⟩
  meter := fun l m w num den j hd h => ⟨(Alike.setMeter l m _).sound h.1, routesResolved_kept.meter l m w num den j hd h.2⟩
  route := fun l r hc h => ⟨h.1.setEntry (Lineage.checkLoadRoute_routable hc) _ _, routesResolved_kept.route l r hc h.2⟩
  vessel := fun l v cfg hc h => ⟨h.1.applyLoadVessel hc, routesResolved_kept.vessel l v cfg hc h.2⟩
  clear := fun l now h => ⟨h.1.cleared now, routesResolved_kept.clear l now h.2⟩
  operation := fun s e h => ⟨e.operation_sound h.1 h.2, routesResolved_kept.operation s e h.2⟩

/-- Settles O50: the lineage state's soundness taken apart into tables and shape, each kept by every way in which a step
changes the lineage state. -/
theorem everyStepKeepsLineageSound : Obligations.EveryStepKeepsLineageSound := fun _ _ hs hr h =>
  (soundRouted_kept.step h ⟨hs.sound, hr⟩).1.lineageSound

end Sys2Proof.Machine
